-- ==== Sys2Proof/Word.lean ====
section
/-! DEFINITION. The two widths of this hardware (00_scope.md R6): data 8 bits, addresses 16 bits. -/
namespace Sys2Proof

/-- A byte: the data bus and every data register (00_scope.md R6). -/
abbrev Byte := BitVec 8

/-- A 16-bit address or the program counter (00_scope.md R6). -/
abbrev Word := BitVec 16

end Sys2Proof
end

