-- ==== Sys2Proof/Syntax.lean ====
section
/-! DEFINITION. The instruction set as syntax: the thirteen addressing modes, the 76 mnemonics, the
operand forms, and Instr, the instructions of the 256 rows of spec/opcode_table.json.
A constructor is named by its mnemonic and mode.
Operands are the bytes of the instruction stream (30_encoding.md R81): an immediate, a zero-page
address or pointer, a branch offset, or a 16-bit address (low byte first in memory). -/
namespace Sys2Proof

/-- The 13 addressing modes (00_scope.md R14; 30_encoding.md R88 to R100). -/
inductive Mode where
  | implied | accumulator | immediate | zeroPage | zeroPageX | zeroPageY | absolute | absoluteX
  | absoluteY | indirect | indirectX | indirectY | relative
  deriving DecidableEq, Repr

/-- An operand in one of the 13 modes, with the bytes the instruction holds (30_encoding.md R81). -/
inductive Operand where
  /-- R88: the operation names its operands. -/
  | implied
  /-- R89: the operand is the accumulator. -/
  | acc
  /-- R90: the operand byte itself. -/
  | imm (v : Byte)
  /-- R91. -/
  | zp (b : Byte)
  /-- R92. -/
  | zpx (b : Byte)
  /-- R93. -/
  | zpy (b : Byte)
  /-- R94. -/
  | abs (a : Word)
  /-- R95. -/
  | absx (a : Word)
  /-- R96. -/
  | absy (a : Word)
  /-- R97, pre-indexed indirect. -/
  | izx (b : Byte)
  /-- R98, post-indexed indirect. -/
  | izy (b : Byte)
  /-- R99, JMP ($nnnn) only. -/
  | ind (a : Word)
  /-- R100, the branches only: a signed offset. -/
  | rel (off : Byte)
  deriving DecidableEq, Repr

/-- The mode of an operand. -/
def Operand.mode : Operand → Mode
  | .implied => .implied
  | .acc => .accumulator
  | .imm _ => .immediate
  | .zp _ => .zeroPage
  | .zpx _ => .zeroPageX
  | .zpy _ => .zeroPageY
  | .abs _ => .absolute
  | .absx _ => .absoluteX
  | .absy _ => .absoluteY
  | .izx _ => .indirectX
  | .izy _ => .indirectY
  | .ind _ => .indirect
  | .rel _ => .relative

/-- The length of an instruction in each mode, in bytes (30_encoding.md R80). -/
def Mode.length : Mode → Nat
  | .implied => 1
  | .accumulator => 1
  | .immediate => 2
  | .zeroPage => 2
  | .zeroPageX => 2
  | .zeroPageY => 2
  | .relative => 2
  | .indirectX => 2
  | .indirectY => 2
  | .absolute => 3
  | .absoluteX => 3
  | .absoluteY => 3
  | .indirect => 3

/-- The 76 mnemonics of spec/opcode_table.json. -/
inductive Mnemonic where
  | brk | ora | jam | slo | nop | asl | php | anc | bpl | clc | jsr | and | rla | bit | rol
  | plp | bmi | sec | rti | eor | sre | lsr | pha | alr | jmp | bvc | cli | rts | adc | rra
  | ror | pla | arr | bvs | sei | sta | sax | sty | stx | dey | txa | ane | bcc | sha | tya
  | txs | tas | shy | shx | ldy | lda | ldx | lax | tay | tax | lxa | bcs | clv | tsx | las
  | cpy | cmp | dcp | dec | iny | dex | axs | bne | cld | cpx | sbc | isc | inc | inx | beq
  | sed
  deriving DecidableEq, Repr

/-- The instructions (30_encoding.md R102), in the order of spec/opcode_table.json. Each of the 256 rows
has its constructor. Where several rows are one operation under several opcode bytes (same mnemonic,
mode, length, cycles and rule: JAM, ANC and the unofficial NOPs), the constructor carries the opcode byte
`op`, and Instr.wellFormed lists the rows' bytes (log 29). BRK carries no operand: its signature byte is
skipped and never read (45_control_transfer.md R245). -/
inductive Instr where
  /-- $00, `BRK`, official: R245. -/
  | brk
  /-- $01, `ORA ($nn,X)`, official: R175. -/
  | oraIzx (b : Byte)
  /-- $02 $12 $22 $32 $42 $52 $62 $72 $92 $B2 $D2 $F2, `JAM`, jam: R277. -/
  | jam (op : Byte)
  /-- $03, `SLO ($nn,X)`, unofficial: R261. -/
  | sloIzx (b : Byte)
  /-- $04 $44 $64, `NOP $nn`, unofficial: R276. -/
  | nopZp (op : Byte) (b : Byte)
  /-- $05, `ORA $nn`, official: R175. -/
  | oraZp (b : Byte)
  /-- $06, `ASL $nn`, official: R201. -/
  | aslZp (b : Byte)
  /-- $07, `SLO $nn`, unofficial: R261. -/
  | sloZp (b : Byte)
  /-- $08, `PHP`, official: R210. -/
  | php
  /-- $09, `ORA #$nn`, official: R175. -/
  | oraImm (v : Byte)
  /-- $0A, `ASL A`, official: R201. -/
  | aslAcc
  /-- $0B $2B, `ANC #$nn`, unofficial: R269. -/
  | anc (op : Byte) (v : Byte)
  /-- $0C, `NOP $nnnn`, unofficial: R276. -/
  | nopAbs (a : Word)
  /-- $0D, `ORA $nnnn`, official: R175. -/
  | oraAbs (a : Word)
  /-- $0E, `ASL $nnnn`, official: R201. -/
  | aslAbs (a : Word)
  /-- $0F, `SLO $nnnn`, unofficial: R261. -/
  | sloAbs (a : Word)
  /-- $10, `BPL $nnnn (target)`, official: R231. -/
  | bpl (off : Byte)
  /-- $11, `ORA ($nn),Y`, official: R175. -/
  | oraIzy (b : Byte)
  /-- $13, `SLO ($nn),Y`, unofficial: R261. -/
  | sloIzy (b : Byte)
  /-- $14 $34 $54 $74 $D4 $F4, `NOP $nn,X`, unofficial: R276. -/
  | nopZpx (op : Byte) (b : Byte)
  /-- $15, `ORA $nn,X`, official: R175. -/
  | oraZpx (b : Byte)
  /-- $16, `ASL $nn,X`, official: R201. -/
  | aslZpx (b : Byte)
  /-- $17, `SLO $nn,X`, unofficial: R261. -/
  | sloZpx (b : Byte)
  /-- $18, `CLC`, official: R214. -/
  | clc
  /-- $19, `ORA $nnnn,Y`, official: R175. -/
  | oraAbsy (a : Word)
  /-- $1A $3A $5A $7A $DA $FA, `NOP`, unofficial: R274. -/
  | nopImplied (op : Byte)
  /-- $1B, `SLO $nnnn,Y`, unofficial: R261. -/
  | sloAbsy (a : Word)
  /-- $1C $3C $5C $7C $DC $FC, `NOP $nnnn,X`, unofficial: R276. -/
  | nopAbsx (op : Byte) (a : Word)
  /-- $1D, `ORA $nnnn,X`, official: R175. -/
  | oraAbsx (a : Word)
  /-- $1E, `ASL $nnnn,X`, official: R201. -/
  | aslAbsx (a : Word)
  /-- $1F, `SLO $nnnn,X`, unofficial: R261. -/
  | sloAbsx (a : Word)
  /-- $20, `JSR $nnnn`, official: R241. -/
  | jsr (a : Word)
  /-- $21, `AND ($nn,X)`, official: R174. -/
  | andIzx (b : Byte)
  /-- $23, `RLA ($nn,X)`, unofficial: R262. -/
  | rlaIzx (b : Byte)
  /-- $24, `BIT $nn`, official: R180. -/
  | bitZp (b : Byte)
  /-- $25, `AND $nn`, official: R174. -/
  | andZp (b : Byte)
  /-- $26, `ROL $nn`, official: R203. -/
  | rolZp (b : Byte)
  /-- $27, `RLA $nn`, unofficial: R262. -/
  | rlaZp (b : Byte)
  /-- $28, `PLP`, official: R213. -/
  | plp
  /-- $29, `AND #$nn`, official: R174. -/
  | andImm (v : Byte)
  /-- $2A, `ROL A`, official: R203. -/
  | rolAcc
  /-- $2C, `BIT $nnnn`, official: R180. -/
  | bitAbs (a : Word)
  /-- $2D, `AND $nnnn`, official: R174. -/
  | andAbs (a : Word)
  /-- $2E, `ROL $nnnn`, official: R203. -/
  | rolAbs (a : Word)
  /-- $2F, `RLA $nnnn`, unofficial: R262. -/
  | rlaAbs (a : Word)
  /-- $30, `BMI $nnnn (target)`, official: R232. -/
  | bmi (off : Byte)
  /-- $31, `AND ($nn),Y`, official: R174. -/
  | andIzy (b : Byte)
  /-- $33, `RLA ($nn),Y`, unofficial: R262. -/
  | rlaIzy (b : Byte)
  /-- $35, `AND $nn,X`, official: R174. -/
  | andZpx (b : Byte)
  /-- $36, `ROL $nn,X`, official: R203. -/
  | rolZpx (b : Byte)
  /-- $37, `RLA $nn,X`, unofficial: R262. -/
  | rlaZpx (b : Byte)
  /-- $38, `SEC`, official: R215. -/
  | sec
  /-- $39, `AND $nnnn,Y`, official: R174. -/
  | andAbsy (a : Word)
  /-- $3B, `RLA $nnnn,Y`, unofficial: R262. -/
  | rlaAbsy (a : Word)
  /-- $3D, `AND $nnnn,X`, official: R174. -/
  | andAbsx (a : Word)
  /-- $3E, `ROL $nnnn,X`, official: R203. -/
  | rolAbsx (a : Word)
  /-- $3F, `RLA $nnnn,X`, unofficial: R262. -/
  | rlaAbsx (a : Word)
  /-- $40, `RTI`, official: R244. -/
  | rti
  /-- $41, `EOR ($nn,X)`, official: R176. -/
  | eorIzx (b : Byte)
  /-- $43, `SRE ($nn,X)`, unofficial: R263. -/
  | sreIzx (b : Byte)
  /-- $45, `EOR $nn`, official: R176. -/
  | eorZp (b : Byte)
  /-- $46, `LSR $nn`, official: R202. -/
  | lsrZp (b : Byte)
  /-- $47, `SRE $nn`, unofficial: R263. -/
  | sreZp (b : Byte)
  /-- $48, `PHA`, official: R211. -/
  | pha
  /-- $49, `EOR #$nn`, official: R176. -/
  | eorImm (v : Byte)
  /-- $4A, `LSR A`, official: R202. -/
  | lsrAcc
  /-- $4B, `ALR #$nn`, unofficial: R270. -/
  | alr (v : Byte)
  /-- $4C, `JMP $nnnn`, official: R239. -/
  | jmpAbs (a : Word)
  /-- $4D, `EOR $nnnn`, official: R176. -/
  | eorAbs (a : Word)
  /-- $4E, `LSR $nnnn`, official: R202. -/
  | lsrAbs (a : Word)
  /-- $4F, `SRE $nnnn`, unofficial: R263. -/
  | sreAbs (a : Word)
  /-- $50, `BVC $nnnn (target)`, official: R233. -/
  | bvc (off : Byte)
  /-- $51, `EOR ($nn),Y`, official: R176. -/
  | eorIzy (b : Byte)
  /-- $53, `SRE ($nn),Y`, unofficial: R263. -/
  | sreIzy (b : Byte)
  /-- $55, `EOR $nn,X`, official: R176. -/
  | eorZpx (b : Byte)
  /-- $56, `LSR $nn,X`, official: R202. -/
  | lsrZpx (b : Byte)
  /-- $57, `SRE $nn,X`, unofficial: R263. -/
  | sreZpx (b : Byte)
  /-- $58, `CLI`, official: R216. -/
  | cli
  /-- $59, `EOR $nnnn,Y`, official: R176. -/
  | eorAbsy (a : Word)
  /-- $5B, `SRE $nnnn,Y`, unofficial: R263. -/
  | sreAbsy (a : Word)
  /-- $5D, `EOR $nnnn,X`, official: R176. -/
  | eorAbsx (a : Word)
  /-- $5E, `LSR $nnnn,X`, official: R202. -/
  | lsrAbsx (a : Word)
  /-- $5F, `SRE $nnnn,X`, unofficial: R263. -/
  | sreAbsx (a : Word)
  /-- $60, `RTS`, official: R242. -/
  | rts
  /-- $61, `ADC ($nn,X)`, official: R172. -/
  | adcIzx (b : Byte)
  /-- $63, `RRA ($nn,X)`, unofficial: R264. -/
  | rraIzx (b : Byte)
  /-- $65, `ADC $nn`, official: R172. -/
  | adcZp (b : Byte)
  /-- $66, `ROR $nn`, official: R204. -/
  | rorZp (b : Byte)
  /-- $67, `RRA $nn`, unofficial: R264. -/
  | rraZp (b : Byte)
  /-- $68, `PLA`, official: R212. -/
  | pla
  /-- $69, `ADC #$nn`, official: R172. -/
  | adcImm (v : Byte)
  /-- $6A, `ROR A`, official: R204. -/
  | rorAcc
  /-- $6B, `ARR #$nn`, unofficial: R271. -/
  | arr (v : Byte)
  /-- $6C, `JMP ($nnnn)`, official: R240. -/
  | jmpInd (a : Word)
  /-- $6D, `ADC $nnnn`, official: R172. -/
  | adcAbs (a : Word)
  /-- $6E, `ROR $nnnn`, official: R204. -/
  | rorAbs (a : Word)
  /-- $6F, `RRA $nnnn`, unofficial: R264. -/
  | rraAbs (a : Word)
  /-- $70, `BVS $nnnn (target)`, official: R234. -/
  | bvs (off : Byte)
  /-- $71, `ADC ($nn),Y`, official: R172. -/
  | adcIzy (b : Byte)
  /-- $73, `RRA ($nn),Y`, unofficial: R264. -/
  | rraIzy (b : Byte)
  /-- $75, `ADC $nn,X`, official: R172. -/
  | adcZpx (b : Byte)
  /-- $76, `ROR $nn,X`, official: R204. -/
  | rorZpx (b : Byte)
  /-- $77, `RRA $nn,X`, unofficial: R264. -/
  | rraZpx (b : Byte)
  /-- $78, `SEI`, official: R217. -/
  | sei
  /-- $79, `ADC $nnnn,Y`, official: R172. -/
  | adcAbsy (a : Word)
  /-- $7B, `RRA $nnnn,Y`, unofficial: R264. -/
  | rraAbsy (a : Word)
  /-- $7D, `ADC $nnnn,X`, official: R172. -/
  | adcAbsx (a : Word)
  /-- $7E, `ROR $nnnn,X`, official: R204. -/
  | rorAbsx (a : Word)
  /-- $7F, `RRA $nnnn,X`, unofficial: R264. -/
  | rraAbsx (a : Word)
  /-- $80 $82 $89 $C2 $E2, `NOP #$nn`, unofficial: R275. -/
  | nopImm (op : Byte) (v : Byte)
  /-- $81, `STA ($nn,X)`, official: R153. -/
  | staIzx (b : Byte)
  /-- $83, `SAX ($nn,X)`, unofficial: R265. -/
  | saxIzx (b : Byte)
  /-- $84, `STY $nn`, official: R155. -/
  | styZp (b : Byte)
  /-- $85, `STA $nn`, official: R153. -/
  | staZp (b : Byte)
  /-- $86, `STX $nn`, official: R154. -/
  | stxZp (b : Byte)
  /-- $87, `SAX $nn`, unofficial: R265. -/
  | saxZp (b : Byte)
  /-- $88, `DEY`, official: R186. -/
  | dey
  /-- $8A, `TXA`, official: R158. -/
  | txa
  /-- $8B, `ANE #$nn`, unstable: R279. -/
  | ane (v : Byte)
  /-- $8C, `STY $nnnn`, official: R155. -/
  | styAbs (a : Word)
  /-- $8D, `STA $nnnn`, official: R153. -/
  | staAbs (a : Word)
  /-- $8E, `STX $nnnn`, official: R154. -/
  | stxAbs (a : Word)
  /-- $8F, `SAX $nnnn`, unofficial: R265. -/
  | saxAbs (a : Word)
  /-- $90, `BCC $nnnn (target)`, official: R235. -/
  | bcc (off : Byte)
  /-- $91, `STA ($nn),Y`, official: R153. -/
  | staIzy (b : Byte)
  /-- $93, `SHA ($nn),Y`, unstable: R281. -/
  | shaIzy (b : Byte)
  /-- $94, `STY $nn,X`, official: R155. -/
  | styZpx (b : Byte)
  /-- $95, `STA $nn,X`, official: R153. -/
  | staZpx (b : Byte)
  /-- $96, `STX $nn,Y`, official: R154. -/
  | stxZpy (b : Byte)
  /-- $97, `SAX $nn,Y`, unofficial: R265. -/
  | saxZpy (b : Byte)
  /-- $98, `TYA`, official: R159. -/
  | tya
  /-- $99, `STA $nnnn,Y`, official: R153. -/
  | staAbsy (a : Word)
  /-- $9A, `TXS`, official: R161. -/
  | txs
  /-- $9B, `TAS $nnnn,Y`, unstable: R284. -/
  | tas (a : Word)
  /-- $9C, `SHY $nnnn,X`, unstable: R283. -/
  | shy (a : Word)
  /-- $9D, `STA $nnnn,X`, official: R153. -/
  | staAbsx (a : Word)
  /-- $9E, `SHX $nnnn,Y`, unstable: R282. -/
  | shx (a : Word)
  /-- $9F, `SHA $nnnn,Y`, unstable: R281. -/
  | shaAbsy (a : Word)
  /-- $A0, `LDY #$nn`, official: R152. -/
  | ldyImm (v : Byte)
  /-- $A1, `LDA ($nn,X)`, official: R150. -/
  | ldaIzx (b : Byte)
  /-- $A2, `LDX #$nn`, official: R151. -/
  | ldxImm (v : Byte)
  /-- $A3, `LAX ($nn,X)`, unofficial: R266. -/
  | laxIzx (b : Byte)
  /-- $A4, `LDY $nn`, official: R152. -/
  | ldyZp (b : Byte)
  /-- $A5, `LDA $nn`, official: R150. -/
  | ldaZp (b : Byte)
  /-- $A6, `LDX $nn`, official: R151. -/
  | ldxZp (b : Byte)
  /-- $A7, `LAX $nn`, unofficial: R266. -/
  | laxZp (b : Byte)
  /-- $A8, `TAY`, official: R157. -/
  | tay
  /-- $A9, `LDA #$nn`, official: R150. -/
  | ldaImm (v : Byte)
  /-- $AA, `TAX`, official: R156. -/
  | tax
  /-- $AB, `LXA #$nn`, unstable: R280. -/
  | lxa (v : Byte)
  /-- $AC, `LDY $nnnn`, official: R152. -/
  | ldyAbs (a : Word)
  /-- $AD, `LDA $nnnn`, official: R150. -/
  | ldaAbs (a : Word)
  /-- $AE, `LDX $nnnn`, official: R151. -/
  | ldxAbs (a : Word)
  /-- $AF, `LAX $nnnn`, unofficial: R266. -/
  | laxAbs (a : Word)
  /-- $B0, `BCS $nnnn (target)`, official: R236. -/
  | bcs (off : Byte)
  /-- $B1, `LDA ($nn),Y`, official: R150. -/
  | ldaIzy (b : Byte)
  /-- $B3, `LAX ($nn),Y`, unofficial: R266. -/
  | laxIzy (b : Byte)
  /-- $B4, `LDY $nn,X`, official: R152. -/
  | ldyZpx (b : Byte)
  /-- $B5, `LDA $nn,X`, official: R150. -/
  | ldaZpx (b : Byte)
  /-- $B6, `LDX $nn,Y`, official: R151. -/
  | ldxZpy (b : Byte)
  /-- $B7, `LAX $nn,Y`, unofficial: R266. -/
  | laxZpy (b : Byte)
  /-- $B8, `CLV`, official: R218. -/
  | clv
  /-- $B9, `LDA $nnnn,Y`, official: R150. -/
  | ldaAbsy (a : Word)
  /-- $BA, `TSX`, official: R160. -/
  | tsx
  /-- $BB, `LAS $nnnn,Y`, unstable: R285. -/
  | las (a : Word)
  /-- $BC, `LDY $nnnn,X`, official: R152. -/
  | ldyAbsx (a : Word)
  /-- $BD, `LDA $nnnn,X`, official: R150. -/
  | ldaAbsx (a : Word)
  /-- $BE, `LDX $nnnn,Y`, official: R151. -/
  | ldxAbsy (a : Word)
  /-- $BF, `LAX $nnnn,Y`, unofficial: R266. -/
  | laxAbsy (a : Word)
  /-- $C0, `CPY #$nn`, official: R179. -/
  | cpyImm (v : Byte)
  /-- $C1, `CMP ($nn,X)`, official: R177. -/
  | cmpIzx (b : Byte)
  /-- $C3, `DCP ($nn,X)`, unofficial: R267. -/
  | dcpIzx (b : Byte)
  /-- $C4, `CPY $nn`, official: R179. -/
  | cpyZp (b : Byte)
  /-- $C5, `CMP $nn`, official: R177. -/
  | cmpZp (b : Byte)
  /-- $C6, `DEC $nn`, official: R182. -/
  | decZp (b : Byte)
  /-- $C7, `DCP $nn`, unofficial: R267. -/
  | dcpZp (b : Byte)
  /-- $C8, `INY`, official: R184. -/
  | iny
  /-- $C9, `CMP #$nn`, official: R177. -/
  | cmpImm (v : Byte)
  /-- $CA, `DEX`, official: R185. -/
  | dex
  /-- $CB, `AXS #$nn`, unofficial: R272. -/
  | axs (v : Byte)
  /-- $CC, `CPY $nnnn`, official: R179. -/
  | cpyAbs (a : Word)
  /-- $CD, `CMP $nnnn`, official: R177. -/
  | cmpAbs (a : Word)
  /-- $CE, `DEC $nnnn`, official: R182. -/
  | decAbs (a : Word)
  /-- $CF, `DCP $nnnn`, unofficial: R267. -/
  | dcpAbs (a : Word)
  /-- $D0, `BNE $nnnn (target)`, official: R237. -/
  | bne (off : Byte)
  /-- $D1, `CMP ($nn),Y`, official: R177. -/
  | cmpIzy (b : Byte)
  /-- $D3, `DCP ($nn),Y`, unofficial: R267. -/
  | dcpIzy (b : Byte)
  /-- $D5, `CMP $nn,X`, official: R177. -/
  | cmpZpx (b : Byte)
  /-- $D6, `DEC $nn,X`, official: R182. -/
  | decZpx (b : Byte)
  /-- $D7, `DCP $nn,X`, unofficial: R267. -/
  | dcpZpx (b : Byte)
  /-- $D8, `CLD`, official: R219. -/
  | cld
  /-- $D9, `CMP $nnnn,Y`, official: R177. -/
  | cmpAbsy (a : Word)
  /-- $DB, `DCP $nnnn,Y`, unofficial: R267. -/
  | dcpAbsy (a : Word)
  /-- $DD, `CMP $nnnn,X`, official: R177. -/
  | cmpAbsx (a : Word)
  /-- $DE, `DEC $nnnn,X`, official: R182. -/
  | decAbsx (a : Word)
  /-- $DF, `DCP $nnnn,X`, unofficial: R267. -/
  | dcpAbsx (a : Word)
  /-- $E0, `CPX #$nn`, official: R178. -/
  | cpxImm (v : Byte)
  /-- $E1, `SBC ($nn,X)`, official: R173. -/
  | sbcIzx (b : Byte)
  /-- $E3, `ISC ($nn,X)`, unofficial: R268. -/
  | iscIzx (b : Byte)
  /-- $E4, `CPX $nn`, official: R178. -/
  | cpxZp (b : Byte)
  /-- $E5, `SBC $nn`, official: R173. -/
  | sbcZp (b : Byte)
  /-- $E6, `INC $nn`, official: R181. -/
  | incZp (b : Byte)
  /-- $E7, `ISC $nn`, unofficial: R268. -/
  | iscZp (b : Byte)
  /-- $E8, `INX`, official: R183. -/
  | inx
  /-- $E9, `SBC #$nn`, official: R173. -/
  | sbcImm (v : Byte)
  /-- $EA, `NOP`, official: R221. -/
  | nop
  /-- $EB, `SBC #$nn`, unofficial: R273. -/
  | sbcEB (v : Byte)
  /-- $EC, `CPX $nnnn`, official: R178. -/
  | cpxAbs (a : Word)
  /-- $ED, `SBC $nnnn`, official: R173. -/
  | sbcAbs (a : Word)
  /-- $EE, `INC $nnnn`, official: R181. -/
  | incAbs (a : Word)
  /-- $EF, `ISC $nnnn`, unofficial: R268. -/
  | iscAbs (a : Word)
  /-- $F0, `BEQ $nnnn (target)`, official: R238. -/
  | beq (off : Byte)
  /-- $F1, `SBC ($nn),Y`, official: R173. -/
  | sbcIzy (b : Byte)
  /-- $F3, `ISC ($nn),Y`, unofficial: R268. -/
  | iscIzy (b : Byte)
  /-- $F5, `SBC $nn,X`, official: R173. -/
  | sbcZpx (b : Byte)
  /-- $F6, `INC $nn,X`, official: R181. -/
  | incZpx (b : Byte)
  /-- $F7, `ISC $nn,X`, unofficial: R268. -/
  | iscZpx (b : Byte)
  /-- $F8, `SED`, official: R220. -/
  | sed
  /-- $F9, `SBC $nnnn,Y`, official: R173. -/
  | sbcAbsy (a : Word)
  /-- $FB, `ISC $nnnn,Y`, unofficial: R268. -/
  | iscAbsy (a : Word)
  /-- $FD, `SBC $nnnn,X`, official: R173. -/
  | sbcAbsx (a : Word)
  /-- $FE, `INC $nnnn,X`, official: R181. -/
  | incAbsx (a : Word)
  /-- $FF, `ISC $nnnn,X`, unofficial: R268. -/
  | iscAbsx (a : Word)
  deriving DecidableEq, Repr

/-- The mnemonic of an instruction (spec/opcode_table.json). -/
def Instr.mnemonic : Instr → Mnemonic
  | .brk => .brk
  | .oraIzx _ | .oraZp _ | .oraImm _ | .oraAbs _ | .oraIzy _ | .oraZpx _ | .oraAbsy _
  | .oraAbsx _ => .ora
  | .jam _ => .jam
  | .sloIzx _ | .sloZp _ | .sloAbs _ | .sloIzy _ | .sloZpx _ | .sloAbsy _ | .sloAbsx _ => .slo
  | .nopZp _ _ | .nopAbs _ | .nopZpx _ _ | .nopImplied _ | .nopAbsx _ _ | .nopImm _ _
  | .nop => .nop
  | .aslZp _ | .aslAcc | .aslAbs _ | .aslZpx _ | .aslAbsx _ => .asl
  | .php => .php
  | .anc _ _ => .anc
  | .bpl _ => .bpl
  | .clc => .clc
  | .jsr _ => .jsr
  | .andIzx _ | .andZp _ | .andImm _ | .andAbs _ | .andIzy _ | .andZpx _ | .andAbsy _
  | .andAbsx _ => .and
  | .rlaIzx _ | .rlaZp _ | .rlaAbs _ | .rlaIzy _ | .rlaZpx _ | .rlaAbsy _ | .rlaAbsx _ => .rla
  | .bitZp _ | .bitAbs _ => .bit
  | .rolZp _ | .rolAcc | .rolAbs _ | .rolZpx _ | .rolAbsx _ => .rol
  | .plp => .plp
  | .bmi _ => .bmi
  | .sec => .sec
  | .rti => .rti
  | .eorIzx _ | .eorZp _ | .eorImm _ | .eorAbs _ | .eorIzy _ | .eorZpx _ | .eorAbsy _
  | .eorAbsx _ => .eor
  | .sreIzx _ | .sreZp _ | .sreAbs _ | .sreIzy _ | .sreZpx _ | .sreAbsy _ | .sreAbsx _ => .sre
  | .lsrZp _ | .lsrAcc | .lsrAbs _ | .lsrZpx _ | .lsrAbsx _ => .lsr
  | .pha => .pha
  | .alr _ => .alr
  | .jmpAbs _ | .jmpInd _ => .jmp
  | .bvc _ => .bvc
  | .cli => .cli
  | .rts => .rts
  | .adcIzx _ | .adcZp _ | .adcImm _ | .adcAbs _ | .adcIzy _ | .adcZpx _ | .adcAbsy _
  | .adcAbsx _ => .adc
  | .rraIzx _ | .rraZp _ | .rraAbs _ | .rraIzy _ | .rraZpx _ | .rraAbsy _ | .rraAbsx _ => .rra
  | .rorZp _ | .rorAcc | .rorAbs _ | .rorZpx _ | .rorAbsx _ => .ror
  | .pla => .pla
  | .arr _ => .arr
  | .bvs _ => .bvs
  | .sei => .sei
  | .staIzx _ | .staZp _ | .staAbs _ | .staIzy _ | .staZpx _ | .staAbsy _ | .staAbsx _ => .sta
  | .saxIzx _ | .saxZp _ | .saxAbs _ | .saxZpy _ => .sax
  | .styZp _ | .styAbs _ | .styZpx _ => .sty
  | .stxZp _ | .stxAbs _ | .stxZpy _ => .stx
  | .dey => .dey
  | .txa => .txa
  | .ane _ => .ane
  | .bcc _ => .bcc
  | .shaIzy _ | .shaAbsy _ => .sha
  | .tya => .tya
  | .txs => .txs
  | .tas _ => .tas
  | .shy _ => .shy
  | .shx _ => .shx
  | .ldyImm _ | .ldyZp _ | .ldyAbs _ | .ldyZpx _ | .ldyAbsx _ => .ldy
  | .ldaIzx _ | .ldaZp _ | .ldaImm _ | .ldaAbs _ | .ldaIzy _ | .ldaZpx _ | .ldaAbsy _
  | .ldaAbsx _ => .lda
  | .ldxImm _ | .ldxZp _ | .ldxAbs _ | .ldxZpy _ | .ldxAbsy _ => .ldx
  | .laxIzx _ | .laxZp _ | .laxAbs _ | .laxIzy _ | .laxZpy _ | .laxAbsy _ => .lax
  | .tay => .tay
  | .tax => .tax
  | .lxa _ => .lxa
  | .bcs _ => .bcs
  | .clv => .clv
  | .tsx => .tsx
  | .las _ => .las
  | .cpyImm _ | .cpyZp _ | .cpyAbs _ => .cpy
  | .cmpIzx _ | .cmpZp _ | .cmpImm _ | .cmpAbs _ | .cmpIzy _ | .cmpZpx _ | .cmpAbsy _
  | .cmpAbsx _ => .cmp
  | .dcpIzx _ | .dcpZp _ | .dcpAbs _ | .dcpIzy _ | .dcpZpx _ | .dcpAbsy _ | .dcpAbsx _ => .dcp
  | .decZp _ | .decAbs _ | .decZpx _ | .decAbsx _ => .dec
  | .iny => .iny
  | .dex => .dex
  | .axs _ => .axs
  | .bne _ => .bne
  | .cld => .cld
  | .cpxImm _ | .cpxZp _ | .cpxAbs _ => .cpx
  | .sbcIzx _ | .sbcZp _ | .sbcImm _ | .sbcEB _ | .sbcAbs _ | .sbcIzy _ | .sbcZpx _
  | .sbcAbsy _ | .sbcAbsx _ => .sbc
  | .iscIzx _ | .iscZp _ | .iscAbs _ | .iscIzy _ | .iscZpx _ | .iscAbsy _ | .iscAbsx _ => .isc
  | .incZp _ | .incAbs _ | .incZpx _ | .incAbsx _ => .inc
  | .inx => .inx
  | .beq _ => .beq
  | .sed => .sed

/-- The operand of an instruction, with its mode (30_encoding.md R102). -/
def Instr.operand : Instr → Operand
  | .brk | .jam _ | .php | .clc | .nopImplied _ | .plp | .sec | .rti | .pha | .cli | .rts
  | .pla | .sei | .dey | .txa | .tya | .txs | .tay | .tax | .clv | .tsx | .iny | .dex
  | .cld | .inx | .nop | .sed => .implied
  | .aslAcc | .rolAcc | .lsrAcc | .rorAcc => .acc
  | .oraImm v | .anc _ v | .andImm v | .eorImm v | .alr v | .adcImm v | .arr v
  | .nopImm _ v | .ane v | .ldyImm v | .ldxImm v | .ldaImm v | .lxa v | .cpyImm v
  | .cmpImm v | .axs v | .cpxImm v | .sbcImm v | .sbcEB v => .imm v
  | .nopZp _ b | .oraZp b | .aslZp b | .sloZp b | .bitZp b | .andZp b | .rolZp b | .rlaZp b
  | .eorZp b | .lsrZp b | .sreZp b | .adcZp b | .rorZp b | .rraZp b | .styZp b | .staZp b
  | .stxZp b | .saxZp b | .ldyZp b | .ldaZp b | .ldxZp b | .laxZp b | .cpyZp b | .cmpZp b
  | .decZp b | .dcpZp b | .cpxZp b | .sbcZp b | .incZp b | .iscZp b => .zp b
  | .nopZpx _ b | .oraZpx b | .aslZpx b | .sloZpx b | .andZpx b | .rolZpx b | .rlaZpx b
  | .eorZpx b | .lsrZpx b | .sreZpx b | .adcZpx b | .rorZpx b | .rraZpx b | .styZpx b
  | .staZpx b | .ldyZpx b | .ldaZpx b | .cmpZpx b | .decZpx b | .dcpZpx b | .sbcZpx b
  | .incZpx b | .iscZpx b => .zpx b
  | .stxZpy b | .saxZpy b | .ldxZpy b | .laxZpy b => .zpy b
  | .nopAbs a | .oraAbs a | .aslAbs a | .sloAbs a | .jsr a | .bitAbs a | .andAbs a
  | .rolAbs a | .rlaAbs a | .jmpAbs a | .eorAbs a | .lsrAbs a | .sreAbs a | .adcAbs a
  | .rorAbs a | .rraAbs a | .styAbs a | .staAbs a | .stxAbs a | .saxAbs a | .ldyAbs a
  | .ldaAbs a | .ldxAbs a | .laxAbs a | .cpyAbs a | .cmpAbs a | .decAbs a | .dcpAbs a
  | .cpxAbs a | .sbcAbs a | .incAbs a | .iscAbs a => .abs a
  | .nopAbsx _ a | .oraAbsx a | .aslAbsx a | .sloAbsx a | .andAbsx a | .rolAbsx a
  | .rlaAbsx a | .eorAbsx a | .lsrAbsx a | .sreAbsx a | .adcAbsx a | .rorAbsx a
  | .rraAbsx a | .shy a | .staAbsx a | .ldyAbsx a | .ldaAbsx a | .cmpAbsx a | .decAbsx a
  | .dcpAbsx a | .sbcAbsx a | .incAbsx a | .iscAbsx a => .absx a
  | .oraAbsy a | .sloAbsy a | .andAbsy a | .rlaAbsy a | .eorAbsy a | .sreAbsy a
  | .adcAbsy a | .rraAbsy a | .staAbsy a | .tas a | .shx a | .shaAbsy a | .ldaAbsy a
  | .las a | .ldxAbsy a | .laxAbsy a | .cmpAbsy a | .dcpAbsy a | .sbcAbsy a | .iscAbsy a => .absy a
  | .oraIzx b | .sloIzx b | .andIzx b | .rlaIzx b | .eorIzx b | .sreIzx b | .adcIzx b
  | .rraIzx b | .staIzx b | .saxIzx b | .ldaIzx b | .laxIzx b | .cmpIzx b | .dcpIzx b
  | .sbcIzx b | .iscIzx b => .izx b
  | .oraIzy b | .sloIzy b | .andIzy b | .rlaIzy b | .eorIzy b | .sreIzy b | .adcIzy b
  | .rraIzy b | .staIzy b | .shaIzy b | .ldaIzy b | .laxIzy b | .cmpIzy b | .dcpIzy b
  | .sbcIzy b | .iscIzy b => .izy b
  | .jmpInd a => .ind a
  | .bpl off | .bmi off | .bvc off | .bvs off | .bcc off | .bcs off | .bne off | .beq off => .rel off

/-- How far the instruction moves the program counter when it does not transfer control: its length
in bytes (30_encoding.md R80). BRK is one opcode byte followed by a signature byte it skips. -/
def Instr.length : Instr → Nat
  | .brk => 2
  | i => i.operand.mode.length

end Sys2Proof
end

