-- ==== Sys2Proof/WellFormed.lean ====
section
/-! DEFINITION. When a term of Instr is an instruction of the hardware. Two checks: the mnemonic exists in
the operand's mode, as the "Encoding" part of its rule says (41_load_store_transfer.md to
46_unofficial.md); and the opcode byte that a constructor of several rows carries is one of those rows.
No opcode value is reserved (30_encoding.md R103), so every decoded instruction passes. -/
namespace Sys2Proof

/-- The modes the rules give a mnemonic. -/
def Mnemonic.modes : Mnemonic → List Mode
  -- R150, R172 to R177
  | .lda | .adc | .sbc | .and | .ora | .eor | .cmp =>
    [.immediate, .zeroPage, .zeroPageX, .absolute, .absoluteX, .absoluteY, .indirectX, .indirectY]
  -- R151: the indexed forms index by Y
  | .ldx => [.immediate, .zeroPage, .zeroPageY, .absolute, .absoluteY]
  -- R152
  | .ldy => [.immediate, .zeroPage, .zeroPageX, .absolute, .absoluteX]
  -- R153: no immediate form
  | .sta => [.zeroPage, .zeroPageX, .absolute, .absoluteX, .absoluteY, .indirectX, .indirectY]
  -- R154
  | .stx => [.zeroPage, .zeroPageY, .absolute]
  -- R155
  | .sty => [.zeroPage, .zeroPageX, .absolute]
  -- R178, R179: no indexed form
  | .cpx | .cpy => [.immediate, .zeroPage, .absolute]
  -- R180: no immediate form
  | .bit => [.zeroPage, .absolute]
  -- R181, R182: no accumulator form
  | .inc | .dec => [.zeroPage, .zeroPageX, .absolute, .absoluteX]
  -- R201 to R204
  | .asl | .lsr | .rol | .ror => [.accumulator, .zeroPage, .zeroPageX, .absolute, .absoluteX]
  -- R156 to R161, R183 to R186, R210 to R220, R242, R244, R245, R277
  | .tax | .tay | .txa | .tya | .tsx | .txs | .inx | .iny | .dex | .dey | .php | .pha | .pla | .plp
  | .clc | .sec | .cli | .sei | .clv | .cld | .sed | .rts | .rti | .brk | .jam => [.implied]
  -- R231 to R238
  | .bpl | .bmi | .bvc | .bvs | .bcc | .bcs | .bne | .beq => [.relative]
  -- R239, R240
  | .jmp => [.absolute, .indirect]
  -- R241
  | .jsr => [.absolute]
  -- R221, R274 to R276
  | .nop => [.implied, .immediate, .zeroPage, .zeroPageX, .absolute, .absoluteX]
  -- R260
  | .slo | .rla | .sre | .rra | .dcp | .isc =>
    [.zeroPage, .zeroPageX, .absolute, .absoluteX, .absoluteY, .indirectX, .indirectY]
  -- R265
  | .sax => [.zeroPage, .zeroPageY, .absolute, .indirectX]
  -- R266: the immediate form is LXA
  | .lax => [.zeroPage, .zeroPageY, .absolute, .absoluteY, .indirectX, .indirectY]
  -- R269 to R272, R279, R280
  | .anc | .alr | .arr | .axs | .ane | .lxa => [.immediate]
  -- R281
  | .sha => [.absoluteY, .indirectY]
  -- R282, R284, R285
  | .shx | .tas | .las => [.absoluteY]
  -- R283
  | .shy => [.absoluteX]

/-- A mnemonic together with an operand, as an assembler reads it (30_encoding.md R104). -/
structure Form where
  mnemonic : Mnemonic
  operand : Operand
  deriving DecidableEq, Repr

/-- A form the ISA has: the mnemonic exists in the operand's mode. -/
def Form.wellFormed (f : Form) : Bool :=
  f.mnemonic.modes.contains f.operand.mode

/-- The form of an instruction. -/
def Instr.form (i : Instr) : Form := ⟨i.mnemonic, i.operand⟩

/-- The opcode byte a constructor of several rows carries is one of its rows (30_encoding.md R102). -/
def Instr.opcodeListed : Instr → Bool
  -- R277
  | .jam op =>
    [0x02, 0x12, 0x22, 0x32, 0x42, 0x52, 0x62, 0x72, 0x92, 0xB2, 0xD2, 0xF2].contains op
  -- R274
  | .nopImplied op => [0x1A, 0x3A, 0x5A, 0x7A, 0xDA, 0xFA].contains op
  -- R275
  | .nopImm op _ => [0x80, 0x82, 0x89, 0xC2, 0xE2].contains op
  -- R276
  | .nopZp op _ => [0x04, 0x44, 0x64].contains op
  | .nopZpx op _ => [0x14, 0x34, 0x54, 0x74, 0xD4, 0xF4].contains op
  | .nopAbsx op _ => [0x1C, 0x3C, 0x5C, 0x7C, 0xDC, 0xFC].contains op
  -- R269
  | .anc op _ => [0x0B, 0x2B].contains op
  -- every other constructor is one row and carries no opcode byte
  | _ => true

/-- A well-formed instruction: its mnemonic has its mode, and an opcode byte it carries is listed. -/
def Instr.wellFormed (i : Instr) : Bool := i.form.wellFormed && i.opcodeListed

end Sys2Proof
end

