-- ==== Sys2Proof/Decode.lean ====
section
/-! DEFINITION. The decoder and the encoder, both written from the opcode map of 30_encoding.md R102
(spec/opcode_table.json), and the byte-order helpers they use. The opcode byte alone decides the
operation, the mode and the length (R80); all 256 values are mapped (R103), so the only byte sequences
the decoder refuses are those that end before the instruction does. -/
namespace Sys2Proof

/-- The low byte of a 16-bit value, `v[7:0]`. -/
def loByte (v : Word) : Byte := v.extractLsb' 0 8

/-- The high byte of a 16-bit value, `v[15:8]`: the page of an address (00_scope.md R14). -/
def hiByte (v : Word) : Byte := v.extractLsb' 8 8

/-- The 16-bit value `(hi, lo)`, `hi * 256 + lo` (00_scope.md R8). -/
def mkWord (hi lo : Byte) : Word := hi ++ lo

/-- `zext_16` (00_scope.md R8). -/
def zext16 (v : Byte) : Word := v.setWidth 16

/-- `sext_16` (00_scope.md R8). -/
def sext16 (v : Byte) : Word := v.signExtend 16

/-- Row 0x of the opcode map (30_encoding.md R102), by the low nibble. -/
def opcodeRow0 (lo : Nat) (b : Byte) (a : Word) : Instr :=
  match lo with
  | 0 => .brk
  | 1 => .oraIzx b
  | 2 => .jam 0x02
  | 3 => .sloIzx b
  | 4 => .nopZp 0x04 b
  | 5 => .oraZp b
  | 6 => .aslZp b
  | 7 => .sloZp b
  | 8 => .php
  | 9 => .oraImm b
  | 10 => .aslAcc
  | 11 => .anc 0x0B b
  | 12 => .nopAbs a
  | 13 => .oraAbs a
  | 14 => .aslAbs a
  | _ => .sloAbs a

/-- Row 1x of the opcode map (30_encoding.md R102), by the low nibble. -/
def opcodeRow1 (lo : Nat) (b : Byte) (a : Word) : Instr :=
  match lo with
  | 0 => .bpl b
  | 1 => .oraIzy b
  | 2 => .jam 0x12
  | 3 => .sloIzy b
  | 4 => .nopZpx 0x14 b
  | 5 => .oraZpx b
  | 6 => .aslZpx b
  | 7 => .sloZpx b
  | 8 => .clc
  | 9 => .oraAbsy a
  | 10 => .nopImplied 0x1A
  | 11 => .sloAbsy a
  | 12 => .nopAbsx 0x1C a
  | 13 => .oraAbsx a
  | 14 => .aslAbsx a
  | _ => .sloAbsx a

/-- Row 2x of the opcode map (30_encoding.md R102), by the low nibble. -/
def opcodeRow2 (lo : Nat) (b : Byte) (a : Word) : Instr :=
  match lo with
  | 0 => .jsr a
  | 1 => .andIzx b
  | 2 => .jam 0x22
  | 3 => .rlaIzx b
  | 4 => .bitZp b
  | 5 => .andZp b
  | 6 => .rolZp b
  | 7 => .rlaZp b
  | 8 => .plp
  | 9 => .andImm b
  | 10 => .rolAcc
  | 11 => .anc 0x2B b
  | 12 => .bitAbs a
  | 13 => .andAbs a
  | 14 => .rolAbs a
  | _ => .rlaAbs a

/-- Row 3x of the opcode map (30_encoding.md R102), by the low nibble. -/
def opcodeRow3 (lo : Nat) (b : Byte) (a : Word) : Instr :=
  match lo with
  | 0 => .bmi b
  | 1 => .andIzy b
  | 2 => .jam 0x32
  | 3 => .rlaIzy b
  | 4 => .nopZpx 0x34 b
  | 5 => .andZpx b
  | 6 => .rolZpx b
  | 7 => .rlaZpx b
  | 8 => .sec
  | 9 => .andAbsy a
  | 10 => .nopImplied 0x3A
  | 11 => .rlaAbsy a
  | 12 => .nopAbsx 0x3C a
  | 13 => .andAbsx a
  | 14 => .rolAbsx a
  | _ => .rlaAbsx a

/-- Row 4x of the opcode map (30_encoding.md R102), by the low nibble. -/
def opcodeRow4 (lo : Nat) (b : Byte) (a : Word) : Instr :=
  match lo with
  | 0 => .rti
  | 1 => .eorIzx b
  | 2 => .jam 0x42
  | 3 => .sreIzx b
  | 4 => .nopZp 0x44 b
  | 5 => .eorZp b
  | 6 => .lsrZp b
  | 7 => .sreZp b
  | 8 => .pha
  | 9 => .eorImm b
  | 10 => .lsrAcc
  | 11 => .alr b
  | 12 => .jmpAbs a
  | 13 => .eorAbs a
  | 14 => .lsrAbs a
  | _ => .sreAbs a

/-- Row 5x of the opcode map (30_encoding.md R102), by the low nibble. -/
def opcodeRow5 (lo : Nat) (b : Byte) (a : Word) : Instr :=
  match lo with
  | 0 => .bvc b
  | 1 => .eorIzy b
  | 2 => .jam 0x52
  | 3 => .sreIzy b
  | 4 => .nopZpx 0x54 b
  | 5 => .eorZpx b
  | 6 => .lsrZpx b
  | 7 => .sreZpx b
  | 8 => .cli
  | 9 => .eorAbsy a
  | 10 => .nopImplied 0x5A
  | 11 => .sreAbsy a
  | 12 => .nopAbsx 0x5C a
  | 13 => .eorAbsx a
  | 14 => .lsrAbsx a
  | _ => .sreAbsx a

/-- Row 6x of the opcode map (30_encoding.md R102), by the low nibble. -/
def opcodeRow6 (lo : Nat) (b : Byte) (a : Word) : Instr :=
  match lo with
  | 0 => .rts
  | 1 => .adcIzx b
  | 2 => .jam 0x62
  | 3 => .rraIzx b
  | 4 => .nopZp 0x64 b
  | 5 => .adcZp b
  | 6 => .rorZp b
  | 7 => .rraZp b
  | 8 => .pla
  | 9 => .adcImm b
  | 10 => .rorAcc
  | 11 => .arr b
  | 12 => .jmpInd a
  | 13 => .adcAbs a
  | 14 => .rorAbs a
  | _ => .rraAbs a

/-- Row 7x of the opcode map (30_encoding.md R102), by the low nibble. -/
def opcodeRow7 (lo : Nat) (b : Byte) (a : Word) : Instr :=
  match lo with
  | 0 => .bvs b
  | 1 => .adcIzy b
  | 2 => .jam 0x72
  | 3 => .rraIzy b
  | 4 => .nopZpx 0x74 b
  | 5 => .adcZpx b
  | 6 => .rorZpx b
  | 7 => .rraZpx b
  | 8 => .sei
  | 9 => .adcAbsy a
  | 10 => .nopImplied 0x7A
  | 11 => .rraAbsy a
  | 12 => .nopAbsx 0x7C a
  | 13 => .adcAbsx a
  | 14 => .rorAbsx a
  | _ => .rraAbsx a

/-- Row 8x of the opcode map (30_encoding.md R102), by the low nibble. -/
def opcodeRow8 (lo : Nat) (b : Byte) (a : Word) : Instr :=
  match lo with
  | 0 => .nopImm 0x80 b
  | 1 => .staIzx b
  | 2 => .nopImm 0x82 b
  | 3 => .saxIzx b
  | 4 => .styZp b
  | 5 => .staZp b
  | 6 => .stxZp b
  | 7 => .saxZp b
  | 8 => .dey
  | 9 => .nopImm 0x89 b
  | 10 => .txa
  | 11 => .ane b
  | 12 => .styAbs a
  | 13 => .staAbs a
  | 14 => .stxAbs a
  | _ => .saxAbs a

/-- Row 9x of the opcode map (30_encoding.md R102), by the low nibble. -/
def opcodeRow9 (lo : Nat) (b : Byte) (a : Word) : Instr :=
  match lo with
  | 0 => .bcc b
  | 1 => .staIzy b
  | 2 => .jam 0x92
  | 3 => .shaIzy b
  | 4 => .styZpx b
  | 5 => .staZpx b
  | 6 => .stxZpy b
  | 7 => .saxZpy b
  | 8 => .tya
  | 9 => .staAbsy a
  | 10 => .txs
  | 11 => .tas a
  | 12 => .shy a
  | 13 => .staAbsx a
  | 14 => .shx a
  | _ => .shaAbsy a

/-- Row Ax of the opcode map (30_encoding.md R102), by the low nibble. -/
def opcodeRowA (lo : Nat) (b : Byte) (a : Word) : Instr :=
  match lo with
  | 0 => .ldyImm b
  | 1 => .ldaIzx b
  | 2 => .ldxImm b
  | 3 => .laxIzx b
  | 4 => .ldyZp b
  | 5 => .ldaZp b
  | 6 => .ldxZp b
  | 7 => .laxZp b
  | 8 => .tay
  | 9 => .ldaImm b
  | 10 => .tax
  | 11 => .lxa b
  | 12 => .ldyAbs a
  | 13 => .ldaAbs a
  | 14 => .ldxAbs a
  | _ => .laxAbs a

/-- Row Bx of the opcode map (30_encoding.md R102), by the low nibble. -/
def opcodeRowB (lo : Nat) (b : Byte) (a : Word) : Instr :=
  match lo with
  | 0 => .bcs b
  | 1 => .ldaIzy b
  | 2 => .jam 0xB2
  | 3 => .laxIzy b
  | 4 => .ldyZpx b
  | 5 => .ldaZpx b
  | 6 => .ldxZpy b
  | 7 => .laxZpy b
  | 8 => .clv
  | 9 => .ldaAbsy a
  | 10 => .tsx
  | 11 => .las a
  | 12 => .ldyAbsx a
  | 13 => .ldaAbsx a
  | 14 => .ldxAbsy a
  | _ => .laxAbsy a

/-- Row Cx of the opcode map (30_encoding.md R102), by the low nibble. -/
def opcodeRowC (lo : Nat) (b : Byte) (a : Word) : Instr :=
  match lo with
  | 0 => .cpyImm b
  | 1 => .cmpIzx b
  | 2 => .nopImm 0xC2 b
  | 3 => .dcpIzx b
  | 4 => .cpyZp b
  | 5 => .cmpZp b
  | 6 => .decZp b
  | 7 => .dcpZp b
  | 8 => .iny
  | 9 => .cmpImm b
  | 10 => .dex
  | 11 => .axs b
  | 12 => .cpyAbs a
  | 13 => .cmpAbs a
  | 14 => .decAbs a
  | _ => .dcpAbs a

/-- Row Dx of the opcode map (30_encoding.md R102), by the low nibble. -/
def opcodeRowD (lo : Nat) (b : Byte) (a : Word) : Instr :=
  match lo with
  | 0 => .bne b
  | 1 => .cmpIzy b
  | 2 => .jam 0xD2
  | 3 => .dcpIzy b
  | 4 => .nopZpx 0xD4 b
  | 5 => .cmpZpx b
  | 6 => .decZpx b
  | 7 => .dcpZpx b
  | 8 => .cld
  | 9 => .cmpAbsy a
  | 10 => .nopImplied 0xDA
  | 11 => .dcpAbsy a
  | 12 => .nopAbsx 0xDC a
  | 13 => .cmpAbsx a
  | 14 => .decAbsx a
  | _ => .dcpAbsx a

/-- Row Ex of the opcode map (30_encoding.md R102), by the low nibble. -/
def opcodeRowE (lo : Nat) (b : Byte) (a : Word) : Instr :=
  match lo with
  | 0 => .cpxImm b
  | 1 => .sbcIzx b
  | 2 => .nopImm 0xE2 b
  | 3 => .iscIzx b
  | 4 => .cpxZp b
  | 5 => .sbcZp b
  | 6 => .incZp b
  | 7 => .iscZp b
  | 8 => .inx
  | 9 => .sbcImm b
  | 10 => .nop
  | 11 => .sbcEB b
  | 12 => .cpxAbs a
  | 13 => .sbcAbs a
  | 14 => .incAbs a
  | _ => .iscAbs a

/-- Row Fx of the opcode map (30_encoding.md R102), by the low nibble. -/
def opcodeRowF (lo : Nat) (b : Byte) (a : Word) : Instr :=
  match lo with
  | 0 => .beq b
  | 1 => .sbcIzy b
  | 2 => .jam 0xF2
  | 3 => .iscIzy b
  | 4 => .nopZpx 0xF4 b
  | 5 => .sbcZpx b
  | 6 => .incZpx b
  | 7 => .iscZpx b
  | 8 => .sed
  | 9 => .sbcAbsy a
  | 10 => .nopImplied 0xFA
  | 11 => .iscAbsy a
  | 12 => .nopAbsx 0xFC a
  | 13 => .sbcAbsx a
  | 14 => .incAbsx a
  | _ => .iscAbsx a

/-- The opcode map (30_encoding.md R102): the instruction of an opcode byte and up to two operand bytes,
of which it uses as many as its mode has. -/
def instrOf (op b1 b2 : Byte) : Instr :=
  let lo := op.toNat % 16
  let a := mkWord b2 b1
  match op.toNat / 16 with
  | 0 => opcodeRow0 lo b1 a
  | 1 => opcodeRow1 lo b1 a
  | 2 => opcodeRow2 lo b1 a
  | 3 => opcodeRow3 lo b1 a
  | 4 => opcodeRow4 lo b1 a
  | 5 => opcodeRow5 lo b1 a
  | 6 => opcodeRow6 lo b1 a
  | 7 => opcodeRow7 lo b1 a
  | 8 => opcodeRow8 lo b1 a
  | 9 => opcodeRow9 lo b1 a
  | 10 => opcodeRowA lo b1 a
  | 11 => opcodeRowB lo b1 a
  | 12 => opcodeRowC lo b1 a
  | 13 => opcodeRowD lo b1 a
  | 14 => opcodeRowE lo b1 a
  | _ => opcodeRowF lo b1 a

/-- The operand bytes of a mode, in ascending address order, low byte first (30_encoding.md R81). -/
def Operand.bytes : Operand → List Byte
  | .implied | .acc => []
  | .imm v => [v]
  | .zp b | .zpx b | .zpy b | .izx b | .izy b => [b]
  | .rel off => [off]
  | .abs a | .absx a | .absy a | .ind a => [loByte a, hiByte a]

/-- The number of operand bytes of a mode. -/
def Mode.operandBytes (m : Mode) : Nat := m.length - 1

/-- How many operand bytes the decoder reads after an opcode byte (30_encoding.md R80: "reads
`length - 1` further bytes"). BRK's signature byte is not read (45_control_transfer.md R245). -/
def operandCount (op : Byte) : Nat := (instrOf op 0 0).operand.mode.operandBytes

/-- Why a byte sequence is not an instruction. -/
inductive DecodeError where
  /-- The sequence is empty. -/
  | noOpcode
  /-- The sequence ends before the operand bytes of this opcode do. -/
  | operandsMissing (op : Byte)
  deriving DecidableEq, Repr

/-- Decode one instruction from the front of a byte sequence and return the rest of it. -/
def decode : List Byte → Except DecodeError (Instr × List Byte)
  | [] => .error .noOpcode
  | op :: rest =>
    match operandCount op, rest with
    | 0, rest => .ok (instrOf op 0 0, rest)
    | 1, b1 :: rest => .ok (instrOf op b1 0, rest)
    | 2, b1 :: b2 :: rest => .ok (instrOf op b1 b2, rest)
    | _, _ => .error (.operandsMissing op)

/-- The opcode byte of an instruction (the `match` column of spec/opcode_table.json). -/
def Instr.opcode : Instr → Byte
  | .brk => 0x00
  | .oraIzx _ => 0x01
  | .jam op => op
  | .sloIzx _ => 0x03
  | .nopZp op _ => op
  | .oraZp _ => 0x05
  | .aslZp _ => 0x06
  | .sloZp _ => 0x07
  | .php => 0x08
  | .oraImm _ => 0x09
  | .aslAcc => 0x0A
  | .anc op _ => op
  | .nopAbs _ => 0x0C
  | .oraAbs _ => 0x0D
  | .aslAbs _ => 0x0E
  | .sloAbs _ => 0x0F
  | .bpl _ => 0x10
  | .oraIzy _ => 0x11
  | .sloIzy _ => 0x13
  | .nopZpx op _ => op
  | .oraZpx _ => 0x15
  | .aslZpx _ => 0x16
  | .sloZpx _ => 0x17
  | .clc => 0x18
  | .oraAbsy _ => 0x19
  | .nopImplied op => op
  | .sloAbsy _ => 0x1B
  | .nopAbsx op _ => op
  | .oraAbsx _ => 0x1D
  | .aslAbsx _ => 0x1E
  | .sloAbsx _ => 0x1F
  | .jsr _ => 0x20
  | .andIzx _ => 0x21
  | .rlaIzx _ => 0x23
  | .bitZp _ => 0x24
  | .andZp _ => 0x25
  | .rolZp _ => 0x26
  | .rlaZp _ => 0x27
  | .plp => 0x28
  | .andImm _ => 0x29
  | .rolAcc => 0x2A
  | .bitAbs _ => 0x2C
  | .andAbs _ => 0x2D
  | .rolAbs _ => 0x2E
  | .rlaAbs _ => 0x2F
  | .bmi _ => 0x30
  | .andIzy _ => 0x31
  | .rlaIzy _ => 0x33
  | .andZpx _ => 0x35
  | .rolZpx _ => 0x36
  | .rlaZpx _ => 0x37
  | .sec => 0x38
  | .andAbsy _ => 0x39
  | .rlaAbsy _ => 0x3B
  | .andAbsx _ => 0x3D
  | .rolAbsx _ => 0x3E
  | .rlaAbsx _ => 0x3F
  | .rti => 0x40
  | .eorIzx _ => 0x41
  | .sreIzx _ => 0x43
  | .eorZp _ => 0x45
  | .lsrZp _ => 0x46
  | .sreZp _ => 0x47
  | .pha => 0x48
  | .eorImm _ => 0x49
  | .lsrAcc => 0x4A
  | .alr _ => 0x4B
  | .jmpAbs _ => 0x4C
  | .eorAbs _ => 0x4D
  | .lsrAbs _ => 0x4E
  | .sreAbs _ => 0x4F
  | .bvc _ => 0x50
  | .eorIzy _ => 0x51
  | .sreIzy _ => 0x53
  | .eorZpx _ => 0x55
  | .lsrZpx _ => 0x56
  | .sreZpx _ => 0x57
  | .cli => 0x58
  | .eorAbsy _ => 0x59
  | .sreAbsy _ => 0x5B
  | .eorAbsx _ => 0x5D
  | .lsrAbsx _ => 0x5E
  | .sreAbsx _ => 0x5F
  | .rts => 0x60
  | .adcIzx _ => 0x61
  | .rraIzx _ => 0x63
  | .adcZp _ => 0x65
  | .rorZp _ => 0x66
  | .rraZp _ => 0x67
  | .pla => 0x68
  | .adcImm _ => 0x69
  | .rorAcc => 0x6A
  | .arr _ => 0x6B
  | .jmpInd _ => 0x6C
  | .adcAbs _ => 0x6D
  | .rorAbs _ => 0x6E
  | .rraAbs _ => 0x6F
  | .bvs _ => 0x70
  | .adcIzy _ => 0x71
  | .rraIzy _ => 0x73
  | .adcZpx _ => 0x75
  | .rorZpx _ => 0x76
  | .rraZpx _ => 0x77
  | .sei => 0x78
  | .adcAbsy _ => 0x79
  | .rraAbsy _ => 0x7B
  | .adcAbsx _ => 0x7D
  | .rorAbsx _ => 0x7E
  | .rraAbsx _ => 0x7F
  | .nopImm op _ => op
  | .staIzx _ => 0x81
  | .saxIzx _ => 0x83
  | .styZp _ => 0x84
  | .staZp _ => 0x85
  | .stxZp _ => 0x86
  | .saxZp _ => 0x87
  | .dey => 0x88
  | .txa => 0x8A
  | .ane _ => 0x8B
  | .styAbs _ => 0x8C
  | .staAbs _ => 0x8D
  | .stxAbs _ => 0x8E
  | .saxAbs _ => 0x8F
  | .bcc _ => 0x90
  | .staIzy _ => 0x91
  | .shaIzy _ => 0x93
  | .styZpx _ => 0x94
  | .staZpx _ => 0x95
  | .stxZpy _ => 0x96
  | .saxZpy _ => 0x97
  | .tya => 0x98
  | .staAbsy _ => 0x99
  | .txs => 0x9A
  | .tas _ => 0x9B
  | .shy _ => 0x9C
  | .staAbsx _ => 0x9D
  | .shx _ => 0x9E
  | .shaAbsy _ => 0x9F
  | .ldyImm _ => 0xA0
  | .ldaIzx _ => 0xA1
  | .ldxImm _ => 0xA2
  | .laxIzx _ => 0xA3
  | .ldyZp _ => 0xA4
  | .ldaZp _ => 0xA5
  | .ldxZp _ => 0xA6
  | .laxZp _ => 0xA7
  | .tay => 0xA8
  | .ldaImm _ => 0xA9
  | .tax => 0xAA
  | .lxa _ => 0xAB
  | .ldyAbs _ => 0xAC
  | .ldaAbs _ => 0xAD
  | .ldxAbs _ => 0xAE
  | .laxAbs _ => 0xAF
  | .bcs _ => 0xB0
  | .ldaIzy _ => 0xB1
  | .laxIzy _ => 0xB3
  | .ldyZpx _ => 0xB4
  | .ldaZpx _ => 0xB5
  | .ldxZpy _ => 0xB6
  | .laxZpy _ => 0xB7
  | .clv => 0xB8
  | .ldaAbsy _ => 0xB9
  | .tsx => 0xBA
  | .las _ => 0xBB
  | .ldyAbsx _ => 0xBC
  | .ldaAbsx _ => 0xBD
  | .ldxAbsy _ => 0xBE
  | .laxAbsy _ => 0xBF
  | .cpyImm _ => 0xC0
  | .cmpIzx _ => 0xC1
  | .dcpIzx _ => 0xC3
  | .cpyZp _ => 0xC4
  | .cmpZp _ => 0xC5
  | .decZp _ => 0xC6
  | .dcpZp _ => 0xC7
  | .iny => 0xC8
  | .cmpImm _ => 0xC9
  | .dex => 0xCA
  | .axs _ => 0xCB
  | .cpyAbs _ => 0xCC
  | .cmpAbs _ => 0xCD
  | .decAbs _ => 0xCE
  | .dcpAbs _ => 0xCF
  | .bne _ => 0xD0
  | .cmpIzy _ => 0xD1
  | .dcpIzy _ => 0xD3
  | .cmpZpx _ => 0xD5
  | .decZpx _ => 0xD6
  | .dcpZpx _ => 0xD7
  | .cld => 0xD8
  | .cmpAbsy _ => 0xD9
  | .dcpAbsy _ => 0xDB
  | .cmpAbsx _ => 0xDD
  | .decAbsx _ => 0xDE
  | .dcpAbsx _ => 0xDF
  | .cpxImm _ => 0xE0
  | .sbcIzx _ => 0xE1
  | .iscIzx _ => 0xE3
  | .cpxZp _ => 0xE4
  | .sbcZp _ => 0xE5
  | .incZp _ => 0xE6
  | .iscZp _ => 0xE7
  | .inx => 0xE8
  | .sbcImm _ => 0xE9
  | .nop => 0xEA
  | .sbcEB _ => 0xEB
  | .cpxAbs _ => 0xEC
  | .sbcAbs _ => 0xED
  | .incAbs _ => 0xEE
  | .iscAbs _ => 0xEF
  | .beq _ => 0xF0
  | .sbcIzy _ => 0xF1
  | .iscIzy _ => 0xF3
  | .sbcZpx _ => 0xF5
  | .incZpx _ => 0xF6
  | .iscZpx _ => 0xF7
  | .sed => 0xF8
  | .sbcAbsy _ => 0xF9
  | .iscAbsy _ => 0xFB
  | .sbcAbsx _ => 0xFD
  | .incAbsx _ => 0xFE
  | .iscAbsx _ => 0xFF

/-- The bytes of an instruction, in memory order (30_encoding.md R81). BRK is its opcode byte alone: the
signature byte after it belongs to no operand. -/
def encode (i : Instr) : List Byte := i.opcode :: i.operand.bytes

/-- The bytes of the opcode table's number `w` of `nbits` bits: its first byte is bits 7..0, the next
bits 15..8; every bit above `nbits` is 0. Three bytes, the longest instruction. -/
def tableBytes (nbits w : Nat) : List Byte :=
  let v := w % 2 ^ nbits
  [BitVec.ofNat 8 v, BitVec.ofNat 8 (v / 256), BitVec.ofNat 8 (v / 65536)]

/-- The instruction the decoder reads from an instruction whose bits are `w`, numbered as
spec/opcode_table.json numbers them. -/
def decodeTableWord (nbits w : Nat) : Option Instr :=
  match decode (tableBytes nbits w) with
  | .ok (i, _) => some i
  | .error _ => none

end Sys2Proof
end

