-- ==== Sys2Proof/Config.lean ====
section
/-! DEFINITION. The free values: what the spec leaves open for every run of the machine. Each is an
uninterpreted constant; nothing in Lean can evaluate it or prove a value of it, so a theorem holds
whatever it is. A function of Nat is applied to the draw counter of the bus (Bus.draws), which every
draw advances: the spec's "draw, a byte the model quantifies over and chooses fresh for each read"
(92_eei_decisions.md D16). -/
namespace Sys2Proof

/-- What reaches the cartridge from the CPU bus (20_memory.md R56). A list of these, the newest first, is all
that a platform's state machine can have seen since power-on, so a function of such a list is every
`bus_state` a platform can have (R58). -/
inductive CartAccess where
  | read (a : Word)
  | write (a : Word) (v : Byte)
  /-- The console's reset of the cartridge (70_reset_and_hazards.md R350). -/
  | reset
  deriving DecidableEq, Repr

/-- `ram0`, internal RAM at power-on: a launch parameter quantified over every value
(70_reset_and_hazards.md R352; 92_eei_decisions.md D17). Log 4. -/
opaque Config.ram0 : BitVec 11 → Byte

/-- Primary OAM at power-on; the spec gives no contents. Log 14. -/
opaque Config.oam0 : Byte → Byte

/-- An open-bus read outside the PPU ports (20_memory.md R64). Log 6. -/
opaque Config.openBus : Nat → Byte

/-- PlatformBus for the cartridge, the read function (20_memory.md R56, R58; 00_scope.md R7): what the platform
answers at an address it fixes no byte for, after the accesses listed (the present read first): the mapper's
view, or open bus where the mapper claims nothing. Log 5. -/
opaque Config.cartByte : List CartAccess → Word → Byte

/-- The bits of an APU status read other than the frame interrupt (60_exceptions.md R327). Log 18. -/
opaque Config.apuStatus : Nat → Byte

/-- A controller read while the strobe is 1 (60_exceptions.md R328; 91_not_in_source.md N27). Log 20. -/
opaque Config.strobedPad : Nat → Byte

/-- A byte of the PPU bus, whose contents are out of scope (00_scope.md R5). Log 12. -/
opaque Config.ppuBusByte : Nat → Byte

/-- The PPU address `v` after the PPU itself has moved it while rendering (60_exceptions.md R321;
the dot pipeline is out of scope, 00_scope.md R5). Logs 12, 13. -/
opaque Config.ppuAddr : Nat → BitVec 15

/-- The sprite-0-hit flag after a dot stepped while rendering; with rendering off, whether a set flag stays set
across dot 1 of the pre-render line. Log 13. -/
opaque Config.sprite0Hit : Nat → Bool

/-- The sprite-overflow flag, in the same two places. Log 13. -/
opaque Config.spriteOverflow : Nat → Bool

/-- The NMI output after an access for which the spec does not say what it does to the output
(60_exceptions.md R326; 91_not_in_source.md N23). Log 11. -/
opaque Config.nmiOutput : Nat → Bool

/-- OAMADDR after an OAMDATA write that rendering drops (70_reset_and_hazards.md R359). Log 14. -/
opaque Config.droppedOamAddr : Nat → Byte

/-- PlatformBus for the cartridge, the interrupt output (20_memory.md R58): whether an asserted mapper IRQ stays
asserted across a CPU write to a mapper register, after the accesses listed (that write first)
(60_exceptions.md R329; the mapper is out of scope, 00_scope.md R5). Log 19. -/
opaque Config.mapperHoldsIrq : List CartAccess → Bool

end Sys2Proof
end

