-- ==== Sys2Proof/Machine/State.lean ====
section
/-! DEFINITION. The state of the machine, as plain data (10_state.md R20 to R40; 20_memory.md R50 to R58;
60_exceptions.md R320 to R334; 70_reset_and_hazards.md R352), the reasons a step can stop, and the launch
state. INVENTORY.md lists every field with its rule and its reset value. -/
namespace Sys2Proof.Machine

/-- Bytes of memory by key, in one canonical form: keys strictly rising (Memory.wf). An unlisted key has no
value here; what the bus answers for it is said where it is read (logs 4, 5, 14). -/
abbrev Memory := List Host.Cell

/-- The status register P (10_state.md R26): the flag set, each flag 0 or 1. Its byte layout is
Status.toByte. -/
structure Status where
  /-- Carry, bit 0 (R27). -/
  c : Bool
  /-- Zero, bit 1 (R28). -/
  z : Bool
  /-- Interrupt disable, bit 2 (R29). -/
  i : Bool
  /-- Decimal, bit 3 (R30). -/
  d : Bool
  /-- Break, bit 4, as held inside P (R31). -/
  b : Bool
  /-- Unused, bit 5 (R32). -/
  u : Bool
  /-- Overflow, bit 6 (R33). -/
  v : Bool
  /-- Negative, bit 7 (R34). -/
  n : Bool
  deriving DecidableEq, Repr

/-- The PPU as the CPU bus and the NMI input see it (60_exceptions.md R320 to R326). -/
structure Ppu where
  /-- PPUCTRL (R322). -/
  ctrl : Byte
  /-- PPUMASK (R323). -/
  mask : Byte
  /-- PPUSTATUS bit 7 (R324). -/
  vblank : Bool
  /-- PPUSTATUS bit 6 (R324). -/
  sprite0Hit : Bool
  /-- PPUSTATUS bit 5 (R324). -/
  spriteOverflow : Bool
  /-- OAMADDR (R325). -/
  oamAddr : Byte
  /-- Primary OAM, keys 0 to 255 (R325; 70_reset_and_hazards.md R359). -/
  oam : Memory
  /-- The PPU address `v` (R321, R325). -/
  v : BitVec 15
  /-- The address latch `t` (R321, R322, R325). -/
  t : BitVec 15
  /-- Fine X, the spec's `x` (R321, R325). -/
  fineX : BitVec 3
  /-- The write latch `w`: true after the first of two writes (R321). -/
  w : Bool
  /-- The PPUDATA read buffer (R321). -/
  readBuffer : Byte
  /-- The data-bus latch (20_memory.md R64; R324). -/
  latch : Byte
  /-- The NMI output (R326). -/
  nmiOut : Bool
  /-- The NMI output after the previous dot (R302). -/
  nmiPrev : Bool
  /-- The line of the last dot stepped, 0 to 261 (R326). -/
  line : Nat
  /-- The last dot stepped, 0 to 340 (R326). -/
  dot : Nat
  /-- Frames completed; its parity tells odd frames (R326). -/
  frame : Nat
  deriving DecidableEq, Repr

/-- The APU as the CPU bus and the IRQ input see it (60_exceptions.md R327). -/
structure Apu where
  /-- The frame interrupt, one of the two inputs of the IRQ line (R304, R327). -/
  frameIrq : Bool
  /-- $4017 bit 7: 5-step mode (mode 1) when true, 4-step (mode 0) when false. -/
  fiveStep : Bool
  /-- $4017 bit 6: the frame interrupt is inhibited. -/
  irqInhibit : Bool
  deriving DecidableEq, Repr

/-- The two controllers (60_exceptions.md R328). A button byte holds A, B, Select, Start, Up, Down, Left,
Right in bits 0 to 7, the order in which a controller returns them. -/
structure Pads where
  /-- Bit 0 of the last write to $4016. -/
  strobe : Bool
  /-- What the host holds down on controller 1. -/
  buttons1 : Byte
  /-- What the host holds down on controller 2. -/
  buttons2 : Byte
  /-- The shift register of controller 1; the next read returns bit 0. -/
  shift1 : Byte
  /-- The shift register of controller 2. -/
  shift2 : Byte
  deriving DecidableEq, Repr

/-- An address decoder: it selects the addresses whose bits under `mask` are those of `value`. -/
structure AddrSelect where
  mask : Word
  value : Word
  deriving DecidableEq, Repr

/-- What a cartridge does when one of its rules is met: its state machine goes to a state, it puts bytes in
view (`none` at an address where it no longer fixes one), and it drives its IRQ output if it drives it. -/
structure CartAnswer where
  state : Nat
  shows : List (Word × Option Byte)
  irq : Option Bool
  deriving DecidableEq, Repr

/-- One transition of a cartridge's state machine: in a state, a CPU write at a selected address, of a byte
whose bits under `mask` are those of `value`. -/
structure CartRule where
  state : Nat
  addr : AddrSelect
  mask : Byte
  value : Byte
  answer : CartAnswer
  deriving DecidableEq, Repr

/-- The cartridge as a launch supplies it (00_scope.md R7; 20_memory.md R56, R58; log 5): PlatformBus as plain
data, as far as the launch fixes it. Its ROM and RAM bytes in view are those listed in Bus.mem. What it does
not fix is Config.cartByte's and Config.mapperHoldsIrq's. -/
structure Cartridge where
  /-- Where a CPU write stores its byte: PRG RAM. -/
  ram : List AddrSelect
  /-- The mapper's registers: the first rule met answers a CPU write. -/
  rules : List CartRule
  /-- What a reset of the console makes of it. -/
  onReset : Option CartAnswer
  deriving DecidableEq, Repr

/-- Everything the CPU bus reaches (20_memory.md R51), with the free-value counter. -/
structure Bus where
  /-- Keys $0000 to $07FF: internal RAM (20_memory.md R52), each byte that has been written. Keys $4020 to
  $FFFF: the cartridge bytes the platform fixes (R56, R58; log 5). -/
  mem : Memory
  /-- The cartridge supplied at launch; no step changes it (00_scope.md R7; 60_exceptions.md R334; log 7). -/
  cart : Cartridge
  /-- The state of the supplied cartridge's state machine (20_memory.md R58, `bus_state`). -/
  cartState : Nat
  /-- What has reached the cartridge, the newest first, but for reads of listed bytes (20_memory.md R58,
  `bus_state` of what the launch does not fix; log 5). -/
  cartLog : List CartAccess
  ppu : Ppu
  apu : Apu
  pads : Pads
  /-- The mapper's IRQ output, the other input of the IRQ line (60_exceptions.md R304, R329). -/
  mapperIrq : Bool
  /-- The byte the current instruction wrote to $4014, if it did (40_execution_cycle.md R134). The model's
  own field (log 24). -/
  dmaPage : Option Byte
  /-- How many free values have been drawn. The model's own field (log 6). -/
  draws : Nat
  deriving DecidableEq, Repr

/-- The television system, which sets the PPU dots per CPU cycle (60_exceptions.md R331). -/
inductive Region where
  | ntsc | pal
  deriving DecidableEq, Repr

/-- The launch parameters that select a behaviour of the core (00_scope.md R7). The host never changes them
after power-on (60_exceptions.md R334), and no step does. The other two of R7, PlatformBus and `ram0`, are
Bus.cart with Config.cartByte (log 5), and Config.ram0 (log 4). -/
structure Launch where
  region : Region
  strictMode : Bool
  debugBreak : Bool
  stopPc : Option Word
  deriving DecidableEq, Repr

/-- The buttons of a controller, in the order a read returns them (60_exceptions.md R328). -/
inductive Button where
  | a | b | select | start | up | down | left | right
  deriving DecidableEq, Repr

/-- What the host and the out-of-scope blocks can do to the machine at a step boundary (60_exceptions.md
R332, R334; log 8). -/
inductive HostEvent where
  /-- The user reset (70_reset_and_hazards.md R351). -/
  | userReset
  /-- `controller_event(port, button, down)`; port 2 when `second`. -/
  | controller (second : Bool) (button : Button) (down : Bool)
  /-- The APU frame sequencer reaches the end of a sequence (60_exceptions.md R327). -/
  | apuSequenceEnd
  /-- The mapper drives its IRQ output to this level (60_exceptions.md R332). -/
  | mapperIrq (level : Bool)
  /-- The `quit` flag (60_exceptions.md R333). -/
  | quit
  deriving DecidableEq, Repr

/-- The refusal and fault marks, which stay for the whole run and no reset clears (00_scope.md R11;
40_execution_cycle.md R123; log 2). -/
inductive Mark where
  /-- `raise Refused(Unstable(op))`. -/
  | refusedUnstable (op : Byte)
  /-- `raise UnsupportedOpcode(op)`. -/
  | unsupportedOpcode (op : Byte)
  deriving DecidableEq, Repr

/-- The state of the machine. -/
structure State where
  /-- Accumulator (10_state.md R20, R21). -/
  a : Byte
  /-- Index register X (R22). -/
  x : Byte
  /-- Index register Y (R23). -/
  y : Byte
  /-- Stack pointer, into page $01 (R24). -/
  sp : Byte
  /-- Program counter (R25). -/
  pc : Word
  /-- Status register (R26). -/
  p : Status
  /-- The NMI latch (R36). -/
  nmiLatch : Bool
  /-- A reset is pending (R38). -/
  resetPending : Bool
  /-- A JAM opcode has halted the core (R39). -/
  jammed : Bool
  /-- OAMDMA stall cycles still to elapse (R39). -/
  stall : Nat
  /-- CPU cycles since power-on (R39; 40_execution_cycle.md R133). -/
  cycleCount : Nat
  /-- The count `c` of the current or last step (40_execution_cycle.md R120, R121; log 22). -/
  stepCycles : Nat
  /-- The PAL dot budget, in fifths of a dot (60_exceptions.md R331; log 17). -/
  dotBudget : Nat
  /-- The refusal or fault mark (40_execution_cycle.md R123; log 2). -/
  mark : Option Mark
  /-- The launch parameters (00_scope.md R7; log 7). -/
  launch : Launch
  /-- What arrives at the coming step boundaries, one list for each (log 8). -/
  inputs : List (List HostEvent)
  /-- Everything behind the CPU bus. -/
  bus : Bus
  deriving DecidableEq, Repr

/-- Why a step stops with a fault. -/
inductive Fault where
  /-- `halt Jammed`: raised by a step of a jammed core with no reset pending (40_execution_cycle.md R122).
  Safe: the spec gives the core no step here. -/
  | jammed
  /-- `raise UnsupportedOpcode(op)`: raised by SHA, TAS, SHX and SHY under `strictMode`
  (46_unofficial.md R278), and by every later step of the marked state. Safe. -/
  | unsupportedOpcode (op : Byte)
  /-- `stop BreakEncountered(p)`: raised by BRK at `p` under `debugBreak`, with no state change
  (45_control_transfer.md R245). Safe. -/
  | breakEncountered (p : Word)
  /-- The host's `quit` ends the run between two steps (60_exceptions.md R333). Safe. -/
  | quit
  deriving DecidableEq, Repr

/-- Why a step is refused. -/
inductive Refusal where
  /-- Raised by an arm of exec whose instruction has no meaning yet; no arm does. Safe. -/
  | notModelled (mnemonic : String)
  /-- `raise Refused(Unstable(op))`: raised by the unstable opcodes (46_unofficial.md R278), and by every
  later step of the marked state. Safe: no effect of theirs is modelled. -/
  | unstable (op : Byte)
  deriving DecidableEq, Repr

/-- P = $24: I = 1, U = 1, all else 0 (10_state.md R40). -/
def Status.reset : Status where
  c := false
  z := false
  i := true
  d := false
  b := false
  u := true
  v := false
  n := false

/-- The PPU front end after a reset of the PPU, at power-on and at a user reset: DESIGN CHOICE, all zero (log 9).
The data-bus latch too: before any port access its value is the platform's parameter (20_memory.md R64;
92_eei_decisions.md D16; 93_implementation_defined.md I4), and the model fixes 0: DESIGN CHOICE, unsafe
(log 9). -/
def Ppu.reset : Ppu where
  ctrl := 0
  mask := 0
  vblank := false
  sprite0Hit := false
  spriteOverflow := false
  oamAddr := 0
  oam := []
  v := 0
  t := 0
  fineX := 0
  w := false
  readBuffer := 0
  latch := 0
  nmiOut := false
  nmiPrev := false
  line := 0
  dot := 0
  frame := 0

/-- The APU after its reset: no interrupt asserted (10_state.md R37); the rest DESIGN CHOICE (log 18). -/
def Apu.reset : Apu where
  frameIrq := false
  fiveStep := false
  irqInhibit := false

/-- The controllers at power-on: DESIGN CHOICE, all zero (log 20). -/
def Pads.reset : Pads where
  strobe := false
  buttons1 := 0
  buttons2 := 0
  shift1 := 0
  shift2 := 0

/-- A cartridge of which the launch fixes nothing but the bytes listed: no PRG RAM, no register (log 5). -/
def Cartridge.default : Cartridge where
  ram := []
  rules := []
  onReset := none

/-- The bus at power-on: nothing listed, and no access made. -/
def Bus.reset : Bus where
  mem := []
  cart := .default
  cartState := 0
  cartLog := []
  ppu := .reset
  apu := .reset
  pads := .reset
  mapperIrq := false
  dmaPage := none
  draws := 0

/-- The default launch parameters (00_scope.md R7). -/
def Launch.default : Launch where
  region := .ntsc
  strictMode := false
  debugBreak := false
  stopPc := none

/-- The launch state (70_reset_and_hazards.md R352), from which every run starts (R363): a reset is pending,
so the first step runs the reset sequence and then the first instruction at the reset vector. A, X, Y, SP
and P may have any value here and PC too, "each is overwritten by the sequence before it is read": the
registers have the values of 10_state.md R40, and PC is 0 (log 3). -/
def State.reset : State where
  a := 0
  x := 0
  y := 0
  sp := 0xFD
  pc := 0
  p := .reset
  nmiLatch := false
  resetPending := true
  jammed := false
  stall := 0
  cycleCount := 0
  stepCycles := 0
  dotBudget := 0
  mark := none
  launch := .default
  inputs := []
  bus := .reset

end Sys2Proof.Machine
end

