-- ==== Sys2Proof/Machine/Memory.lean ====
section
/-! DEFINITION. Memory as a sorted list of (key, byte) pairs: reading one byte, writing one byte, and the
canonical form. Internal RAM, the fixed cartridge bytes (20_memory.md R52, R56) and primary OAM
(60_exceptions.md R325) are held in this form. An unlisted key has no value (`none`), so no entry equals
what an unlisted key reads as. -/
namespace Sys2Proof.Machine

/-- The canonical form: keys strictly rising. -/
abbrev Memory.wf (m : Memory) : Prop := m.Pairwise fun p q => p.1 < q.1

/-- The byte listed at a key. -/
def Memory.lookup : Memory → Nat → Option Byte
  | [], _ => none
  | (k, v) :: m, a => if a = k then some v else Memory.lookup m a

/-- List a byte at a key, keeping the keys rising. -/
def Memory.set : Memory → Nat → Byte → Memory
  | [], a, v => [(a, v)]
  | (k, w) :: m, a, v =>
    if a < k then (a, v) :: (k, w) :: m
    else if a = k then (a, v) :: m
    else (k, w) :: Memory.set m a v

/-- Take a key out of the list. -/
def Memory.erase (m : Memory) (a : Nat) : Memory := m.filter fun c => c.1 != a

/-- List a byte at a key, or take the key out. -/
def Memory.put (m : Memory) (a : Nat) : Option Byte → Memory
  | some v => m.set a v
  | none => m.erase a

end Sys2Proof.Machine
end

