-- ==== Sys2Proof/Machine/Cart.lean ====
section
/-! DEFINITION. The cartridge as the launch supplies it (00_scope.md R7; 20_memory.md R56, R58; log 5): which
addresses are PRG RAM, which rule of the mapper a write meets, and the bytes an answer puts in view. -/
namespace Sys2Proof.Machine

/-- The address is one the decoder selects. -/
def AddrSelect.selects (d : AddrSelect) (a : Word) : Bool := a &&& d.mask == d.value

/-- A CPU write at the address stores its byte (20_memory.md R56, "work RAM at `$6000–$7fff`"). -/
def Cartridge.isRam (c : Cartridge) (a : Word) : Bool := c.ram.any fun d => d.selects a

/-- A rule is met by a write of `v` at `a` in a state. -/
def CartRule.meets (r : CartRule) (state : Nat) (a : Word) (v : Byte) : Bool :=
  r.state == state && r.addr.selects a && (v &&& r.mask == r.value)

/-- The first rule that a write meets (20_memory.md R58, `write`). -/
def Cartridge.ruleFor (c : Cartridge) (state : Nat) (a : Word) (v : Byte) : Option CartRule :=
  c.rules.find? fun r => r.meets state a v

/-- Put the bytes of an answer in view, in order. An address outside cartridge space has none. -/
def showBytes (m : Memory) : List (Word × Option Byte) → Memory
  | [] => m
  | (a, o) :: es => showBytes (if 0x4020 ≤ a.toNat then m.put a.toNat o else m) es

/-- What an answer makes of the byte in view at an address of cartridge space: the last entry for it. -/
def shownAt (a : Word) (old : Option Byte) : List (Word × Option Byte) → Option Byte
  | [] => old
  | (w, o) :: es => shownAt a (if w = a then o else old) es

end Sys2Proof.Machine
end

