-- ==== Sys2Proof/Machine/Ppu.lean ====
section
/-! DEFINITION. The PPU as the CPU sees it: its eight ports (60_exceptions.md R320 to R325), its data-bus
latch (20_memory.md R64), and the dot that sets and clears vblank and drives the NMI output (R326). The dot
pipeline, sprite evaluation, palette and VRAM are out of scope (00_scope.md R5); what they decide is a free
value. In every definition `k` is the draw index of a free value. -/
namespace Sys2Proof.Machine

/-- "Rendering": PPUMASK bit 3 or bit 4 is set (60_exceptions.md R323). -/
def Ppu.rendering (p : Ppu) : Bool := p.mask.getLsbD 3 || p.mask.getLsbD 4

/-- A visible line (0 to 239) or the pre-render line (261) (60_exceptions.md R326). -/
def Ppu.onRenderLine (p : Ppu) : Bool := decide (p.line < 240) || decide (p.line = 261)

/-- A vblank line (241 to 260) (60_exceptions.md R326). -/
def Ppu.onVblankLine (p : Ppu) : Bool := decide (241 ≤ p.line) && decide (p.line ≤ 260)

/-- OAM takes writes "only when rendering is off or during vblank" (70_reset_and_hazards.md R359; log 14). -/
def Ppu.oamWritable (p : Ppu) : Bool := !p.rendering || p.onVblankLine

/-- The OAM byte at OAMADDR. -/
def Ppu.oamByte (p : Ppu) : Byte := (p.oam.lookup p.oamAddr.toNat).getD (Config.oam0 p.oamAddr)

/-- `v` after a PPUDATA access (60_exceptions.md R321): the scroll tick while rendering on a visible or
pre-render line, whose arithmetic the spec does not give (log 12), and PPUCTRL's increment otherwise. -/
def Ppu.nextV (p : Ppu) (k : Nat) : BitVec 15 :=
  if p.rendering && p.onRenderLine then Config.ppuAddr k
  else p.v + (if p.ctrl.getLsbD 2 then 32 else 1)

/-- The palette addresses of the PPU bus, $3F00 to $3FFF of 14 bits (log 12). -/
def Ppu.atPalette (p : Ppu) : Bool := decide (0x3F00 ≤ (p.v.setWidth 14).toNat)

/-- The last dot stepped is the one that sets vblank (60_exceptions.md R324, R326). -/
def Ppu.atVblankDot (p : Ppu) : Bool := decide (p.line = 241) && decide (p.dot = 1)

/-- Dot 1 of the pre-render line, which clears vblank (60_exceptions.md R326). -/
def Ppu.atClearDot (p : Ppu) : Bool := decide (p.line = 261) && decide (p.dot = 1)

/-- PPUSTATUS (60_exceptions.md R324): the three flags in bits 7 to 5, the data-bus latch in bits 4 to 0. A
read on the dot that would set vblank finds the flag suppressed (log 15). -/
def Ppu.statusByte (p : Ppu) : Byte :=
  BitVec.ofBool (p.vblank && !p.atVblankDot) ++ BitVec.ofBool p.sprite0Hit
    ++ BitVec.ofBool p.spriteOverflow ++ p.latch.extractLsb' 0 5

/-- A PPUSTATUS read: clears vblank and `w` (20_memory.md R62). Whether it lowers the NMI output is free
(log 11). -/
def Ppu.readStatus (p : Ppu) (k : Nat) : Byte × Ppu :=
  (p.statusByte,
    { p with vblank := false, w := false, nmiOut := p.nmiOut && Config.nmiOutput k,
             latch := p.statusByte })

/-- An OAMDATA read (60_exceptions.md R320; log 14). -/
def Ppu.readOam (p : Ppu) : Byte × Ppu := (p.oamByte, { p with latch := p.oamByte })

/-- What a PPUDATA read returns: the read buffer, but the palette byte itself at a palette address
(60_exceptions.md R321). PPU bus bytes are free (log 12). -/
def Ppu.dataByte (p : Ppu) (k : Nat) : Byte :=
  if p.atPalette then Config.ppuBusByte (2 * k) else p.readBuffer

/-- A PPUDATA read: refills the read buffer and moves `v` (60_exceptions.md R321, R325). -/
def Ppu.readData (p : Ppu) (k : Nat) : Byte × Ppu :=
  (p.dataByte k,
    { p with readBuffer := Config.ppuBusByte (2 * k + 1), v := p.nextV k, latch := p.dataByte k })

/-- A read of port `$2000 + r` (60_exceptions.md R320). The write-only ports read the data-bus latch
(20_memory.md R64). -/
def Ppu.readPort (p : Ppu) (r : BitVec 3) (k : Nat) : Byte × Ppu :=
  match r.toNat with
  | 2 => p.readStatus k
  | 4 => p.readOam
  | 7 => p.readData k
  | _ => (p.latch, p)

/-- A PPUCTRL write: "updates `t` bits 10–11 only" (60_exceptions.md R321, R322). What a change of the NMI
enable does to the output in vblank is free (R326, log 11). -/
def Ppu.writeCtrl (p : Ppu) (val : Byte) (k : Nat) : Ppu :=
  { p with
    ctrl := val
    t := p.t.extractLsb' 12 3 ++ val.extractLsb' 0 2 ++ p.t.extractLsb' 0 10
    nmiOut :=
      if (p.ctrl.getLsbD 7 != val.getLsbD 7) && (p.vblank || p.nmiOut) then Config.nmiOutput k
      else p.nmiOut }

/-- An OAMDATA write: to OAM at OAMADDR, which then increments (60_exceptions.md R325); dropped while
rendering outside vblank (70_reset_and_hazards.md R359), OAMADDR then being free (log 14). -/
def Ppu.writeOam (p : Ppu) (val : Byte) (k : Nat) : Ppu :=
  if p.oamWritable then { p with oam := p.oam.set p.oamAddr.toNat val, oamAddr := p.oamAddr + 1 }
  else { p with oamAddr := Config.droppedOamAddr k }

/-- A PPUSCROLL write: coarse and fine X first, then coarse and fine Y, into `t` and `x`
(60_exceptions.md R321, R325; 90_conflicts.md C3; log 9 for the positions in `t`). -/
def Ppu.writeScroll (p : Ppu) (val : Byte) : Ppu :=
  if p.w then
    { p with t := val.extractLsb' 0 3 ++ p.t.extractLsb' 10 2 ++ val.extractLsb' 3 5 ++ p.t.extractLsb' 0 5
             w := false }
  else
    { p with t := p.t.extractLsb' 5 10 ++ val.extractLsb' 3 5, fineX := val.extractLsb' 0 3, w := true }

/-- A PPUADDR write: the high byte first; the second write copies `t` to `v` (60_exceptions.md R321, R325;
log 9 for the positions in `t`). -/
def Ppu.writeAddr (p : Ppu) (val : Byte) : Ppu :=
  if p.w then
    let t := p.t.extractLsb' 8 7 ++ val
    { p with t := t, v := t, w := false }
  else
    { p with t := 0#1 ++ val.extractLsb' 0 6 ++ p.t.extractLsb' 0 8, w := true }

/-- A write of port `$2000 + r`, before the data-bus latch takes the byte (60_exceptions.md R320). A
PPUSTATUS write is ignored; a PPUDATA write goes to the PPU bus, out of scope, and moves `v`. Every write takes
effect from the first instruction after a power-on or a reset: DESIGN CHOICE, unsafe (log 30; whether the PPU
ignores writes while it warms up is not in the source, 91_not_in_source.md N32, 70_reset_and_hazards.md
R354). -/
def Ppu.writeReg (p : Ppu) (r : BitVec 3) (val : Byte) (k : Nat) : Ppu :=
  match r.toNat with
  | 0 => p.writeCtrl val k
  | 1 => { p with mask := val }
  | 2 => p
  | 3 => { p with oamAddr := val }
  | 4 => p.writeOam val k
  | 5 => p.writeScroll val
  | 6 => p.writeAddr val
  | _ => { p with v := p.nextV k }

/-- A write of port `$2000 + r`: its effect, and the data-bus latch takes the byte (20_memory.md R64). -/
def Ppu.writePort (p : Ppu) (r : BitVec 3) (val : Byte) (k : Nat) : Ppu :=
  { p.writeReg r val k with latch := val }

/-- The position after the next dot (60_exceptions.md R326): 341 dots a line, lines 0 to 261; on odd frames
with background rendering on, dot 339 of the pre-render line is removed (log 16). -/
def Ppu.nextPosition (p : Ppu) : Ppu :=
  if 340 ≤ p.dot then
    if 261 ≤ p.line then { p with line := 0, dot := 0, frame := p.frame + 1 }
    else { p with line := p.line + 1, dot := 0 }
  else if p.dot = 338 ∧ p.line = 261 ∧ p.frame % 2 = 1 ∧ p.mask.getLsbD 3 = true then
    { p with dot := 340 }
  else { p with dot := p.dot + 1 }

/-- Vblank and the NMI output at the dot just stepped (60_exceptions.md R326): set at dot 1 of line 241,
cleared at dot 1 of the pre-render line. -/
def Ppu.vblankEvents (p : Ppu) : Ppu :=
  if p.atVblankDot then { p with vblank := true, nmiOut := p.nmiOut || p.ctrl.getLsbD 7 }
  else if p.atClearDot then { p with vblank := false, nmiOut := false }
  else p

/-- The dot pipeline draws on this dot: rendering, on a visible or pre-render line. -/
def Ppu.drawing (p : Ppu) : Bool := p.rendering && p.onRenderLine

/-- A free value is drawn on this dot (Ppu.renderEvents). -/
def Ppu.drawsValue (p : Ppu) : Bool := p.drawing || p.atClearDot

/-- What the out-of-scope dot pipeline may change on a dot it draws: `v` and the sprite flags, free. With
rendering off, the spec does not say whether the pre-render line clears the sprite flags (20_memory.md R67;
60_exceptions.md R324): DESIGN CHOICE, at its dot 1 a set flag stays set or falls, free, and on every other
dot both stay (log 13). -/
def Ppu.renderEvents (p : Ppu) (k : Nat) : Ppu :=
  if p.drawing then
    { p with v := Config.ppuAddr k, sprite0Hit := Config.sprite0Hit k,
             spriteOverflow := Config.spriteOverflow k }
  else if p.atClearDot then
    { p with sprite0Hit := p.sprite0Hit && Config.sprite0Hit k,
             spriteOverflow := p.spriteOverflow && Config.spriteOverflow k }
  else p

/-- One PPU dot. -/
def Ppu.stepDot (p : Ppu) (k : Nat) : Ppu := (p.nextPosition.renderEvents k).vblankEvents

end Sys2Proof.Machine
end

