-- ==== Sys2Proof/Machine/Io.lean ====
section
/-! DEFINITION. The APU ports and the controllers as the CPU sees them (60_exceptions.md R327, R328). -/
namespace Sys2Proof.Machine

/-- What a $4015 read returns: the frame interrupt in bit 6, the other bits free (60_exceptions.md R327;
log 18). -/
def Apu.statusByte (u : Apu) (k : Nat) : Byte :=
  (Config.apuStatus k &&& 0xBF) ||| (if u.frameIrq then 0x40 else 0)

/-- A $4015 read clears the frame interrupt (20_memory.md R62). -/
def Apu.readStatus (u : Apu) (k : Nat) : Byte × Apu := (u.statusByte k, { u with frameIrq := false })

/-- A $4017 write: bit 7 the mode, bit 6 the IRQ inhibit, which also clears the frame interrupt
(60_exceptions.md R327). -/
def Apu.writeFrameCounter (u : Apu) (val : Byte) : Apu where
  frameIrq := u.frameIrq && !val.getLsbD 6
  fiveStep := val.getLsbD 7
  irqInhibit := val.getLsbD 6

/-- The end of a frame sequence: "in mode 0 it may raise IRQ at sequence end unless inhibited"
(60_exceptions.md R327). -/
def Apu.sequenceEnd (u : Apu) : Apu :=
  { u with frameIrq := u.frameIrq || (!u.fiveStep && !u.irqInhibit) }

/-- A $4016 write: "Writing 1 then 0 to $4016 latches both controllers' button state"
(60_exceptions.md R328). -/
def Pads.writeStrobe (c : Pads) (val : Byte) : Pads :=
  if c.strobe && !val.getLsbD 0 then
    { c with strobe := false, shift1 := c.buttons1, shift2 := c.buttons2 }
  else { c with strobe := val.getLsbD 0 }

/-- The byte of a controller read: the next bit under the upper bits $40 (60_exceptions.md R328). While the
strobe is 1 the byte is free (log 20). -/
def padByte (strobe : Bool) (shift : Byte) (k : Nat) : Byte :=
  if strobe then Config.strobedPad k else 0x40 ||| (shift &&& 1)

/-- A shift register after a read: the next bit moves down and a 1 enters at the top, so that "after 8
reads, further reads return 1" (60_exceptions.md R328). No shift while the strobe is 1 (log 20). -/
def padShift (strobe : Bool) (shift : Byte) : Byte :=
  if strobe then shift else (shift >>> 1) ||| 0x80

/-- A $4016 read: controller 1. -/
def Pads.read1 (c : Pads) (k : Nat) : Byte × Pads :=
  (padByte c.strobe c.shift1 k, { c with shift1 := padShift c.strobe c.shift1 })

/-- A $4017 read: controller 2. -/
def Pads.read2 (c : Pads) (k : Nat) : Byte × Pads :=
  (padByte c.strobe c.shift2 k, { c with shift2 := padShift c.strobe c.shift2 })

/-- The bit of a button in the order a read returns them (60_exceptions.md R328). -/
def Button.bit : Button → Byte
  | .a => 0x01
  | .b => 0x02
  | .select => 0x04
  | .start => 0x08
  | .up => 0x10
  | .down => 0x20
  | .left => 0x40
  | .right => 0x80

/-- A button byte after a button went down or up. -/
def pressed (buttons : Byte) (btn : Button) (down : Bool) : Byte :=
  if down then buttons ||| btn.bit else buttons &&& ~~~btn.bit

/-- `controller_event(port, button, down)` (60_exceptions.md R334). -/
def Pads.event (c : Pads) (second : Bool) (btn : Button) (down : Bool) : Pads :=
  if second then { c with buttons2 := pressed c.buttons2 btn down }
  else { c with buttons1 := pressed c.buttons1 btn down }

/-- The console's reset of the controllers keeps what the host holds down (log 25). -/
def Pads.consoleReset (c : Pads) : Pads :=
  { Pads.reset with buttons1 := c.buttons1, buttons2 := c.buttons2 }

end Sys2Proof.Machine
end

