-- ==== Sys2Proof/Machine/Bus.lean ====
section
/-! DEFINITION. The CPU bus (20_memory.md R50 to R64): which device answers an address, one-byte reads with
their side effects, one-byte writes, and a read of plain memory without side effects. -/
namespace Sys2Proof.Machine

/-- What answers an address of the CPU bus (20_memory.md R51). -/
inductive Location where
  /-- Internal RAM, mirrors resolved (R52). -/
  | ram (i : BitVec 11)
  /-- A PPU register, mirrors resolved (R53). -/
  | ppu (r : BitVec 3)
  /-- $4000 to $4013. -/
  | apuChannel
  /-- $4014. -/
  | oamDma
  /-- $4015. -/
  | apuStatus
  /-- $4016. -/
  | pad1
  /-- $4017. -/
  | pad2
  /-- $4018 to $401F (R55). -/
  | testMode
  /-- $4020 to $FFFF (R56). -/
  | cart (a : Word)
  deriving DecidableEq, Repr

/-- The CPU bus map (20_memory.md R51 to R56; 60_exceptions.md R320). -/
def locate (a : Word) : Location :=
  if a.toNat < 0x2000 then .ram (a.setWidth 11)
  else if a.toNat < 0x4000 then .ppu (a.setWidth 3)
  else if a.toNat < 0x4014 then .apuChannel
  else if a.toNat = 0x4014 then .oamDma
  else if a.toNat = 0x4015 then .apuStatus
  else if a.toNat = 0x4016 then .pad1
  else if a.toNat = 0x4017 then .pad2
  else if a.toNat < 0x4020 then .testMode
  else .cart a

/-- A byte of internal RAM: the byte last written, or `ram0`'s (20_memory.md R52; log 4). -/
def Bus.ramByte (b : Bus) (i : BitVec 11) : Byte := (b.mem.lookup i.toNat).getD (Config.ram0 i)

/-- Write a byte of internal RAM. -/
def Bus.setRam (b : Bus) (i : BitVec 11) (val : Byte) : Bus := { b with mem := b.mem.set i.toNat val }

/-- The byte of plain memory at an address: internal RAM, or a cartridge byte the platform fixes. Addresses
of devices, and cartridge addresses without a fixed byte, have none. -/
def Bus.peek (b : Bus) (a : Word) : Option Byte :=
  match locate a with
  | .ram i => some (b.ramByte i)
  | .cart a => b.mem.lookup a.toNat
  | _ => none

/-- `PlatformBus.read` at a cartridge address (20_memory.md R56, R58; log 5): a byte the platform fixes, with no
side effect, or else what the platform answers after all that has reached it, this read included. -/
def Bus.readCart (b : Bus) (a : Word) : Byte × Bus :=
  match b.mem.lookup a.toNat with
  | some v => (v, b)
  | none => (Config.cartByte (.read a :: b.cartLog) a, { b with cartLog := .read a :: b.cartLog })

/-- An open-bus read outside the PPU ports: a draw (20_memory.md R64; log 6). -/
def Bus.readOpen (b : Bus) : Byte × Bus :=
  (Config.openBus b.draws, { b with draws := b.draws + 1 })

/-- A read of a PPU port. -/
def Bus.readPpu (b : Bus) (r : BitVec 3) : Byte × Bus :=
  ((b.ppu.readPort r b.draws).1,
    { b with ppu := (b.ppu.readPort r b.draws).2, draws := b.draws + 1 })

/-- `MemRead(a, 1)`: the byte and the bus after the read (00_scope.md R10; 20_memory.md R62, R64). -/
def Bus.read (b : Bus) (a : Word) : Byte × Bus :=
  match locate a with
  | .ram i => (b.ramByte i, b)
  | .ppu r => b.readPpu r
  | .apuStatus =>
    ((b.apu.readStatus b.draws).1,
      { b with apu := (b.apu.readStatus b.draws).2, draws := b.draws + 1 })
  | .pad1 =>
    ((b.pads.read1 b.draws).1, { b with pads := (b.pads.read1 b.draws).2, draws := b.draws + 1 })
  | .pad2 =>
    ((b.pads.read2 b.draws).1, { b with pads := (b.pads.read2 b.draws).2, draws := b.draws + 1 })
  | .apuChannel | .oamDma | .testMode => b.readOpen
  | .cart a => b.readCart a

/-- The cartridge answers: bytes come into view, the state machine moves, the IRQ output is driven. -/
def Bus.answer (b : Bus) (r : CartAnswer) : Bus :=
  { b with mem := showBytes b.mem r.shows, cartState := r.state, mapperIrq := r.irq.getD b.mapperIrq }

/-- The mapper's IRQ output after a CPU write that no supplied rule answers: one in the mapper-register range
may lower it (log 19). -/
def Bus.heldIrq (b : Bus) (a : Word) : Bool :=
  if 0x8000 ≤ a.toNat then b.mapperIrq && Config.mapperHoldsIrq b.cartLog else b.mapperIrq

/-- `PlatformBus.write` at a cartridge address (20_memory.md R56, R58, R63; log 5): the write reaches the
platform; PRG RAM stores the byte; the first rule of the supplied cartridge that it meets answers it. -/
def Bus.writeCart (b : Bus) (a : Word) (val : Byte) : Bus :=
  let c := { b with mem := if b.cart.isRam a then b.mem.set a.toNat val else b.mem,
                    cartLog := .write a val :: b.cartLog }
  match b.cart.ruleFor b.cartState a val with
  | some r => c.answer r.answer
  | none => { c with mapperIrq := c.heldIrq a }

/-- `MemWrite(a, 1, val)` (00_scope.md R10; 20_memory.md R63). A write to $4014 records the page of the
OAMDMA and "reaches no other device" (40_execution_cycle.md R134). -/
def Bus.write (b : Bus) (a : Word) (val : Byte) : Bus :=
  match locate a with
  | .ram i => b.setRam i val
  | .ppu r => { b with ppu := b.ppu.writePort r val b.draws, draws := b.draws + 1 }
  | .oamDma => { b with dmaPage := some val }
  | .pad1 => { b with pads := b.pads.writeStrobe val }
  | .pad2 => { b with apu := b.apu.writeFrameCounter val }
  | .apuChannel | .apuStatus | .testMode => b
  | .cart a => b.writeCart a val

/-- One PPU dot, before the synchronizer looks at the NMI output (60_exceptions.md R302, R332). -/
def Bus.stepDot (b : Bus) : Bus :=
  { b with ppu := b.ppu.stepDot b.draws,
           draws := if b.ppu.nextPosition.drawsValue then b.draws + 1 else b.draws }

/-- The reset of the cartridge (log 25; 20_memory.md R58): it reaches the platform, and a supplied cartridge
answers as it was supplied. Its IRQ output falls. -/
def Bus.resetCart (b : Bus) : Bus :=
  let c := { b with cartLog := .reset :: b.cartLog }
  { (match b.cart.onReset with
      | some r => c.answer r
      | none => c) with mapperIrq := false }

/-- The console's reset of everything behind the bus (log 25): the devices start afresh and assert no
interrupt (10_state.md R37); internal RAM, OAM contents and what the host holds down stay. -/
def Bus.consoleReset (b : Bus) : Bus :=
  { b.resetCart with ppu := { Ppu.reset with oam := b.ppu.oam }, apu := .reset, pads := b.pads.consoleReset }

end Sys2Proof.Machine
end

