-- ==== Sys2Proof/Machine/Flags.lean ====
section
/-! DEFINITION. The status byte and every flag computation: the layout of P (10_state.md R26), SetNZ
(40_execution_cycle.md R126), the binary adder and the compare (42_alu.md R170, R171), BIT (R180), the shift
functions (43_shift_rotate.md R201 to R204), and the special flags of ANC, ALR, ARR and AXS
(46_unofficial.md R269 to R272). -/
namespace Sys2Proof.Machine

/-- P as a byte: C = bit 0, Z = 1, I = 2, D = 3, B = 4, U = 5, V = 6, N = 7 (10_state.md R26). -/
def Status.toByte (p : Status) : Byte :=
  BitVec.ofBool p.n ++ BitVec.ofBool p.v ++ BitVec.ofBool p.u ++ BitVec.ofBool p.b
    ++ BitVec.ofBool p.d ++ BitVec.ofBool p.i ++ BitVec.ofBool p.z ++ BitVec.ofBool p.c

/-- The flags of a byte (10_state.md R26). -/
def Status.ofByte (v : Byte) : Status where
  c := v.getLsbD 0
  z := v.getLsbD 1
  i := v.getLsbD 2
  d := v.getLsbD 3
  b := v.getLsbD 4
  u := v.getLsbD 5
  v := v.getLsbD 6
  n := v.getLsbD 7

/-- What PHP and BRK push: `P | 0x30`, B = 1 and U = 1 (60_exceptions.md R306). -/
def Status.pushedByInstruction (p : Status) : Byte := { p with b := true, u := true : Status }.toByte

/-- What NMI and IRQ push: `(P & ~0x10) | 0x20`, B = 0 and U = 1 (60_exceptions.md R306). -/
def Status.pushedByInterrupt (p : Status) : Byte := { p with b := false, u := true : Status }.toByte

/-- P after PLP pulled a byte: `(v & ~0x10) | 0x20` (44_stack_flags_nop.md R213). -/
def Status.pulledByPlp (v : Byte) : Status := { Status.ofByte v with b := false, u := true }

/-- P after RTI pulled a byte: `v | 0x20` (45_control_transfer.md R244). -/
def Status.pulledByRti (v : Byte) : Status := { Status.ofByte v with u := true }

/-- `SetNZ(v)` (40_execution_cycle.md R126). -/
def Status.setNZ (p : Status) (v : Byte) : Status := { p with z := decide (v = 0), n := v.getLsbD 7 }

/-- The exact sum of the adder, 0 to 511 (42_alu.md R170). -/
def addSum (a b : Byte) (cin : Bool) : Nat := a.toNat + b.toNat + cin.toNat

/-- The adder's result, `sum & 0xFF` (42_alu.md R170). -/
def addResult (a b : Byte) (cin : Bool) : Byte := BitVec.ofNat 8 (addSum a b cin)

/-- The adder's V: "(A^op) has bit 7 clear AND (A^result) has bit 7 set" (42_alu.md R170). -/
def addOverflow (a b r : Byte) : Bool := (~~~(a ^^^ b) &&& (a ^^^ r)).getLsbD 7

/-- The flags of AddWithCarry (42_alu.md R170): C, V, then SetNZ of the result. D plays no part. -/
def Status.afterAdd (p : Status) (a b : Byte) (cin : Bool) : Status :=
  { p.setNZ (addResult a b cin) with
    c := decide (0xFF < addSum a b cin), v := addOverflow a b (addResult a b cin) }

/-- `Compare(r, m)` (42_alu.md R171). -/
def Status.compare (p : Status) (r m : Byte) : Status :=
  { p with c := decide (m.toNat ≤ r.toNat), z := decide (r = m), n := (r - m).getLsbD 7 }

/-- The flags of BIT (42_alu.md R180). -/
def Status.bitTest (p : Status) (a m : Byte) : Status :=
  { p with z := decide (a &&& m = 0), v := m.getLsbD 6, n := m.getLsbD 7 }

/-- ASL's `Op` (43_shift_rotate.md R201). -/
def aslOp (v : Byte) (_ : Bool) : Byte × Bool := (v <<< 1, v.getLsbD 7)

/-- LSR's `Op` (43_shift_rotate.md R202). -/
def lsrOp (v : Byte) (_ : Bool) : Byte × Bool := (v >>> 1, v.getLsbD 0)

/-- ROL's `Op` (43_shift_rotate.md R203). -/
def rolOp (v : Byte) (c : Bool) : Byte × Bool := ((v <<< 1) ||| (if c then 1 else 0), v.getLsbD 7)

/-- ROR's `Op` (43_shift_rotate.md R204). -/
def rorOp (v : Byte) (c : Bool) : Byte × Bool := ((v >>> 1) ||| (if c then 0x80 else 0), v.getLsbD 0)

/-- The flags of ShiftOp: C gets the bit shifted out, then SetNZ of the result (43_shift_rotate.md R200). -/
def Status.afterShift (p : Status) (r : Byte × Bool) : Status := { p.setNZ r.1 with c := r.2 }

/-- The flags of ANC: SetNZ of the new A, and C its bit 7 (46_unofficial.md R269). -/
def Status.afterAnc (p : Status) (r : Byte) : Status := { p.setNZ r with c := r.getLsbD 7 }

/-- The flags of ARR: SetNZ of the new A, C its bit 6, V its bit 6 xor bit 5 (46_unofficial.md R271). -/
def Status.afterArr (p : Status) (r : Byte) : Status :=
  { p.setNZ r with c := r.getLsbD 6, v := r.getLsbD 6 ^^ r.getLsbD 5 }

/-- The flags of AXS: SetNZ of the new X, and C "t >= b1" (46_unofficial.md R272). -/
def Status.afterAxs (p : Status) (t v : Byte) : Status :=
  { p.setNZ (t - v) with c := decide (v.toNat ≤ t.toNat) }

end Sys2Proof.Machine
end

