-- ==== Sys2Proof/Machine/Ops.lean ====
section
/-! DEFINITION. The named operations on the whole state: cycle counting (40_execution_cycle.md R132, R133),
memory access (00_scope.md R10), the stack (40_execution_cycle.md R124, R125), loading a register with its
flags, taking an interrupt and returning from one (60_exceptions.md R305; 45_control_transfer.md R244,
R245), the sampling of interrupts (60_exceptions.md R303), and the reset sequence
(70_reset_and_hazards.md R350). -/
namespace Sys2Proof.Machine

/-- The outcome of a step of this machine. -/
abbrev Result := Host.Outcome State Fault Refusal

/-- Count cycles: in `cycle_count` (40_execution_cycle.md R133) and in the step's own count `c` (R121). -/
def State.tick (s : State) (n : Nat) : State :=
  { s with cycleCount := s.cycleCount + n, stepCycles := s.stepCycles + n }

/-- Move PC past `n` bytes, modulo 65536 (10_state.md R25). -/
def State.advance (s : State) (n : Nat) : State := { s with pc := s.pc + BitVec.ofNat 16 n }

/-- `MemRead(a, 1)` (00_scope.md R10). -/
def State.read (s : State) (a : Word) : Byte × State :=
  ((s.bus.read a).1, { s with bus := (s.bus.read a).2 })

/-- `MemWrite(a, 1, v)` (00_scope.md R10). -/
def State.write (s : State) (a : Word) (v : Byte) : State := { s with bus := s.bus.write a v }

/-- `MemRead16(a)`: two one-byte reads, low byte first (00_scope.md R10). -/
def State.readWord (s : State) (a : Word) : Word × State :=
  (mkWord ((s.read a).2.read (a + 1)).1 (s.read a).1, ((s.read a).2.read (a + 1)).2)

/-- The byte of plain memory at an address, without side effects. -/
def State.peek (s : State) (a : Word) : Option Byte := s.bus.peek a

/-- The RAM byte of a zero-page address (20_memory.md R54). -/
def State.zeroPage (s : State) (b : Byte) : Byte := s.bus.ramByte (b.setWidth 11)

/-- The address of a stack byte, `0x0100 + SP` (10_state.md R24). -/
def stackAddr (sp : Byte) : Word := 0x0100 + zext16 sp

/-- The RAM byte that a stack address names: the stack page is plain memory (20_memory.md R54). -/
def stackIndex (sp : Byte) : BitVec 11 := 0x100 + sp.setWidth 11

/-- `Push(v)` (40_execution_cycle.md R124). -/
def State.push (s : State) (v : Byte) : State :=
  { s with bus := s.bus.setRam (stackIndex s.sp) v, sp := s.sp - 1 }

/-- `Pull()` (40_execution_cycle.md R125). -/
def State.pull (s : State) : Byte × State :=
  (s.bus.ramByte (stackIndex (s.sp + 1)), { s with sp := s.sp + 1 })

/-- Push a 16-bit value, high byte first (45_control_transfer.md R241; 60_exceptions.md R305). -/
def State.pushWord (s : State) (v : Word) : State := (s.push (hiByte v)).push (loByte v)

/-- Pull a 16-bit value, low byte first (20_memory.md R59; 45_control_transfer.md R242, R244). -/
def State.pullWord (s : State) : Word × State :=
  (mkWord s.pull.2.pull.1 s.pull.1, s.pull.2.pull.2)

/-- `A <- v; SetNZ(A)`. -/
def State.setA (s : State) (v : Byte) : State := { s with a := v, p := s.p.setNZ v }

/-- `X <- v; SetNZ(X)`. -/
def State.setX (s : State) (v : Byte) : State := { s with x := v, p := s.p.setNZ v }

/-- `Y <- v; SetNZ(Y)`. -/
def State.setY (s : State) (v : Byte) : State := { s with y := v, p := s.p.setNZ v }

/-- `A <- AddWithCarry(A, m, cin)` (42_alu.md R170). -/
def State.addToA (s : State) (m : Byte) (cin : Bool) : State :=
  { s with a := addResult s.a m cin, p := s.p.afterAdd s.a m cin }

/-- Change the status register. -/
def State.setP (s : State) (p : Status) : State := { s with p := p }

/-! ### Interrupts -/

/-- The NMI vector (20_memory.md R57). -/
def nmiVector : Word := 0xFFFA

/-- The reset vector (20_memory.md R57). -/
def resetVector : Word := 0xFFFC

/-- The vector IRQ and BRK share (20_memory.md R57). -/
def irqVector : Word := 0xFFFE

/-- Taking an interrupt, the one entry NMI, IRQ and BRK share (60_exceptions.md R305;
45_control_transfer.md R245): push the return address, high byte first, then the status byte given; set I;
load PC from the vector. D and the held B are unchanged. -/
def State.takeInterrupt (s : State) (ret : Word) (pushed : Byte) (vector : Word) : State :=
  let t := (s.pushWord ret).push pushed
  let r := { t with p := { t.p with i := true } : State }.readWord vector
  { r.2 with pc := r.1 }

/-- Returning from an interrupt, RTI (45_control_transfer.md R244; 60_exceptions.md R308): pull P, forcing
U = 1, then PC with no +1. -/
def State.returnFromInterrupt (s : State) : State :=
  let t := { s.pull.2 with p := Status.pulledByRti s.pull.1 : State }
  { t.pullWord.2 with pc := t.pullWord.1 }

/-- The IRQ input: the OR of the sources' outputs (10_state.md R37; 60_exceptions.md R304). -/
def State.irqLine (s : State) : Bool := s.bus.apu.frameIrq || s.bus.mapperIrq

/-- NMI entry: clears the latch and takes the interrupt, 7 cycles (60_exceptions.md R303, R305, R306). -/
def State.enterNmi (s : State) : State :=
  ({ s with nmiLatch := false }.takeInterrupt s.pc s.p.pushedByInterrupt nmiVector).tick 7

/-- IRQ entry, 7 cycles: no source is cleared (60_exceptions.md R303 to R306). -/
def State.enterIrq (s : State) : State :=
  (s.takeInterrupt s.pc s.p.pushedByInterrupt irqVector).tick 7

/-- `ServiceInterrupt()`: NMI before IRQ, IRQ only while I = 0, at most one a step
(60_exceptions.md R303, R310). -/
def State.serviceInterrupt (s : State) : State :=
  if s.nmiLatch then s.enterNmi
  else if s.irqLine && !s.p.i then s.enterIrq
  else s

/-- The reset sequence (70_reset_and_hazards.md R350), 7 cycles: the registers, the latches, then PC from
the reset vector. It makes no bus write. The devices are reset with the console (log 25). -/
def State.resetSequence (s : State) : State :=
  let t : State :=
    { s with resetPending := false, a := 0x00, x := 0x00, y := 0x00, sp := 0xFD, p := .reset,
             nmiLatch := false, stall := 0, jammed := false, bus := s.bus.consoleReset }
  ({ (t.readWord resetVector).2 with pc := (t.readWord resetVector).1 } : State).tick 7

end Sys2Proof.Machine
end

