-- ==== Sys2Proof/Machine/Operands.lean ====
section
/-! DEFINITION. The addressing modes (30_encoding.md R84 to R100) and the ways an instruction uses its operand
(40_execution_cycle.md R129 to R131): the shared operations every meaning is one line over. Each of them
moves PC past the instruction (R120: `PC <- next`), makes the accesses of its kind, applies the effect, and
counts the cycles. -/
namespace Sys2Proof

open Machine

/-- The length of the instruction that holds this operand (30_encoding.md R80). -/
def Operand.length (o : Operand) : Nat := o.mode.length

/-- The 16-bit pointer at a zero-page address: the high byte's address wraps within the zero page
(30_encoding.md R97, R98). -/
def Machine.State.zeroPageWord (s : State) (b : Byte) : Word := mkWord (s.zeroPage (b + 1)) (s.zeroPage b)

/-- The effective address of a mode (30_encoding.md R91 to R98). Pointer bytes are zero-page RAM, read without
side effects (R85). The modes that have no address (R88 to R90) or find it in their own way (JMP indirect,
R99; branches, R100) never ask, and have the value 0 here. -/
def Operand.ea (o : Operand) (s : State) : Word :=
  match o with
  | .zp b => zext16 b
  | .zpx b => zext16 (b + s.x)
  | .zpy b => zext16 (b + s.y)
  | .abs a => a
  | .absx a => a + zext16 s.x
  | .absy a => a + zext16 s.y
  | .izx b => s.zeroPageWord (b + s.x)
  | .izy b => s.zeroPageWord b + zext16 s.y
  | .implied | .acc | .imm _ | .ind _ | .rel _ => 0

/-- Whether the addresses lie on different pages. -/
def Machine.pageCross (base ea : Word) : Bool := hiByte ea != hiByte base

/-- `crossed`, set by exactly the absolute,X, absolute,Y and (indirect),Y modes (30_encoding.md R87, R95,
R96, R98). -/
def Operand.crossed (o : Operand) (s : State) : Bool :=
  match o with
  | .absx a => pageCross a (a + zext16 s.x)
  | .absy a => pageCross a (a + zext16 s.y)
  | .izy b => pageCross (s.zeroPageWord b) (s.zeroPageWord b + zext16 s.y)
  | .implied | .acc | .imm _ | .zp _ | .zpx _ | .zpy _ | .abs _ | .izx _ | .ind _ | .rel _ => false

/-- The page-cross cycle (40_execution_cycle.md R132). -/
def Operand.penalty (o : Operand) (s : State) : Nat := (o.crossed s).toNat

/-- The operand value `M` and the state after reading it: the operand byte, the accumulator, or
`MemRead(EA, 1)` (40_execution_cycle.md R129; 30_encoding.md R89, R90). -/
def Operand.fetch (o : Operand) (s : State) : Byte × State :=
  match o with
  | .imm v => (v, s)
  | .acc => (s.a, s)
  | .implied | .zp _ | .zpx _ | .zpy _ | .abs _ | .absx _ | .absy _ | .izx _ | .izy _ | .ind _
  | .rel _ => s.read (o.ea s)

end Sys2Proof

namespace Sys2Proof.Machine

/-- Read kind (40_execution_cycle.md R129): one read of `M`, then the effect; `base` cycles and the page
cross (R132). -/
def readOp (o : Operand) (base : Nat) (effect : Byte → State → State) (s : State) : Result :=
  .next ((effect (o.fetch s).1 ((o.fetch s).2.advance (o.length))).tick (base + o.penalty s))

/-- Write kind (40_execution_cycle.md R130): exactly one write of EA, which is not read; a fixed count. -/
def writeOp (o : Operand) (base : Nat) (value : State → Byte) (s : State) : Result :=
  .next (((s.advance (o.length)).write (o.ea s) (value s)).tick base)

/-- RMW kind (40_execution_cycle.md R131; 46_unofficial.md R260): one read of EA, one write of the result,
then the second operation of a composed opcode on the byte written; a fixed count. `modify` gives the
result and the state with the flags of the first operation. -/
def rmwOp (o : Operand) (base : Nat) (modify : Byte → State → Byte × State)
    (second : Byte → State → State) (s : State) : Result :=
  let m := o.fetch s
  let r := modify m.1 (m.2.advance (o.length))
  .next ((second r.1 (r.2.write (o.ea s) r.1)).tick base)

/-- The second operation of an official RMW instruction: none. -/
def noSecond (_ : Byte) (s : State) : State := s

/-- `modify` of a shift or rotate: the shift's function, with C and SetNZ (43_shift_rotate.md R200). -/
def shiftModify (op : Byte → Bool → Byte × Bool) (v : Byte) (s : State) : Byte × State :=
  ((op v s.p.c).1, s.setP (s.p.afterShift (op v s.p.c)))

/-- `modify` of the shift part of a composed opcode: C only, the other flags being those of the second
operation (46_unofficial.md R260 to R263). -/
def carryModify (op : Byte → Bool → Byte × Bool) (v : Byte) (s : State) : Byte × State :=
  ((op v s.p.c).1, s.setP { s.p with c := (op v s.p.c).2 })

/-- `modify` of INC (42_alu.md R181). -/
def incModify (v : Byte) (s : State) : Byte × State := (v + 1, s.setP (s.p.setNZ (v + 1)))

/-- `modify` of DEC (42_alu.md R182). -/
def decModify (v : Byte) (s : State) : Byte × State := (v - 1, s.setP (s.p.setNZ (v - 1)))

/-- The accumulator form of a shift or rotate: no data access (43_shift_rotate.md R200). -/
def shiftAcc (op : Byte → Bool → Byte × Bool) (s : State) : Result :=
  .next (({ s.advance 1 with a := (op s.a s.p.c).1, p := s.p.afterShift (op s.a s.p.c) } : State).tick 2)

/-- An implied-mode instruction: no operand byte, no access of its own (30_encoding.md R88). -/
def impliedOp (base : Nat) (effect : State → State) (s : State) : Result :=
  .next ((effect (s.advance 1)).tick base)

/-- An instruction that only consumes its bytes and cycles: the operand bytes are fetched and EA is computed,
but not read (44_stack_flags_nop.md R221; 46_unofficial.md R274 to R276). -/
def nopOp (o : Operand) (base : Nat) (s : State) : Result :=
  .next ((s.advance (o.length)).tick (base + o.penalty s))

/-- The target of a branch (30_encoding.md R100). -/
def branchTarget (pc : Word) (off : Byte) : Word := pc + 2 + sext16 off

/-- `Branch(cond)` (45_control_transfer.md R230): 2 cycles, 1 more when taken, 1 more again when the target
is on another page than the next instruction. -/
def branchOp (cond : State → Bool) (off : Byte) (s : State) : Result :=
  .next (({ s with pc := if cond s then branchTarget s.pc off else s.pc + 2 } : State).tick
    (2 + if cond s then 1 + (pageCross (s.pc + 2) (branchTarget s.pc off)).toNat else 0))

/-- The unstable group (46_unofficial.md R278): no state change; a fault under `strictMode` for the opcodes
the source's strict mode names, a refusal otherwise. -/
def unstableOp (op : Byte) (strictFaults : Bool) (s : State) : Result :=
  if strictFaults && s.launch.strictMode then .fault (.unsupportedOpcode op)
  else .refused (.unstable op)

end Sys2Proof.Machine
end

