-- ==== Sys2Proof/Machine/Alu.lean ====
section
/-! DEFINITION. Arithmetic, logic, compare, BIT, increment and decrement (42_alu.md R170 to R187). P.D plays no
part in any of them (R187). -/
namespace Sys2Proof.Machine

/-- ADC: `A <- AddWithCarry(A, M, P.C)` (R172). -/
def adc (m : Byte) (s : State) : State := s.addToA m s.p.c

/-- SBC: `A <- AddWithCarry(A, M ^ 0xFF, P.C)` (R173). -/
def sbc (m : Byte) (s : State) : State := s.addToA (m ^^^ 0xFF) s.p.c

/-- AND: `A <- A & M; SetNZ(A)` (R174). -/
def andA (m : Byte) (s : State) : State := s.setA (s.a &&& m)

/-- ORA: `A <- A | M; SetNZ(A)` (R175). -/
def oraA (m : Byte) (s : State) : State := s.setA (s.a ||| m)

/-- EOR: `A <- A ^ M; SetNZ(A)` (R176). -/
def eorA (m : Byte) (s : State) : State := s.setA (s.a ^^^ m)

/-- CMP: `Compare(A, M)` (R177). -/
def cmp (m : Byte) (s : State) : State := s.setP (s.p.compare s.a m)

/-- CPX: `Compare(X, M)` (R178). -/
def cpx (m : Byte) (s : State) : State := s.setP (s.p.compare s.x m)

/-- CPY: `Compare(Y, M)` (R179). -/
def cpy (m : Byte) (s : State) : State := s.setP (s.p.compare s.y m)

/-- BIT (R180). -/
def bitTest (m : Byte) (s : State) : State := s.setP (s.p.bitTest s.a m)

/-- $61, R172: ADC izx, 6 cycles. -/
def execAdcIzx (b : Byte) (s : State) : Result :=
  readOp (.izx b) 6 adc s

/-- $65, R172: ADC zp, 3 cycles. -/
def execAdcZp (b : Byte) (s : State) : Result :=
  readOp (.zp b) 3 adc s

/-- $69, R172: ADC imm, 2 cycles. -/
def execAdcImm (v : Byte) (s : State) : Result :=
  readOp (.imm v) 2 adc s

/-- $6D, R172: ADC abs, 4 cycles. -/
def execAdcAbs (a : Word) (s : State) : Result :=
  readOp (.abs a) 4 adc s

/-- $71, R172: ADC izy, 5+p cycles. -/
def execAdcIzy (b : Byte) (s : State) : Result :=
  readOp (.izy b) 5 adc s

/-- $75, R172: ADC zpx, 4 cycles. -/
def execAdcZpx (b : Byte) (s : State) : Result :=
  readOp (.zpx b) 4 adc s

/-- $79, R172: ADC absy, 4+p cycles. -/
def execAdcAbsy (a : Word) (s : State) : Result :=
  readOp (.absy a) 4 adc s

/-- $7D, R172: ADC absx, 4+p cycles. -/
def execAdcAbsx (a : Word) (s : State) : Result :=
  readOp (.absx a) 4 adc s

/-- $E1, R173: SBC izx, 6 cycles. -/
def execSbcIzx (b : Byte) (s : State) : Result :=
  readOp (.izx b) 6 sbc s

/-- $E5, R173: SBC zp, 3 cycles. -/
def execSbcZp (b : Byte) (s : State) : Result :=
  readOp (.zp b) 3 sbc s

/-- $E9, R173: SBC imm, 2 cycles. -/
def execSbcImm (v : Byte) (s : State) : Result :=
  readOp (.imm v) 2 sbc s

/-- $ED, R173: SBC abs, 4 cycles. -/
def execSbcAbs (a : Word) (s : State) : Result :=
  readOp (.abs a) 4 sbc s

/-- $F1, R173: SBC izy, 5+p cycles. -/
def execSbcIzy (b : Byte) (s : State) : Result :=
  readOp (.izy b) 5 sbc s

/-- $F5, R173: SBC zpx, 4 cycles. -/
def execSbcZpx (b : Byte) (s : State) : Result :=
  readOp (.zpx b) 4 sbc s

/-- $F9, R173: SBC absy, 4+p cycles. -/
def execSbcAbsy (a : Word) (s : State) : Result :=
  readOp (.absy a) 4 sbc s

/-- $FD, R173: SBC absx, 4+p cycles. -/
def execSbcAbsx (a : Word) (s : State) : Result :=
  readOp (.absx a) 4 sbc s

/-- $21, R174: AND izx, 6 cycles. -/
def execAndIzx (b : Byte) (s : State) : Result :=
  readOp (.izx b) 6 andA s

/-- $25, R174: AND zp, 3 cycles. -/
def execAndZp (b : Byte) (s : State) : Result :=
  readOp (.zp b) 3 andA s

/-- $29, R174: AND imm, 2 cycles. -/
def execAndImm (v : Byte) (s : State) : Result :=
  readOp (.imm v) 2 andA s

/-- $2D, R174: AND abs, 4 cycles. -/
def execAndAbs (a : Word) (s : State) : Result :=
  readOp (.abs a) 4 andA s

/-- $31, R174: AND izy, 5+p cycles. -/
def execAndIzy (b : Byte) (s : State) : Result :=
  readOp (.izy b) 5 andA s

/-- $35, R174: AND zpx, 4 cycles. -/
def execAndZpx (b : Byte) (s : State) : Result :=
  readOp (.zpx b) 4 andA s

/-- $39, R174: AND absy, 4+p cycles. -/
def execAndAbsy (a : Word) (s : State) : Result :=
  readOp (.absy a) 4 andA s

/-- $3D, R174: AND absx, 4+p cycles. -/
def execAndAbsx (a : Word) (s : State) : Result :=
  readOp (.absx a) 4 andA s

/-- $01, R175: ORA izx, 6 cycles. -/
def execOraIzx (b : Byte) (s : State) : Result :=
  readOp (.izx b) 6 oraA s

/-- $05, R175: ORA zp, 3 cycles. -/
def execOraZp (b : Byte) (s : State) : Result :=
  readOp (.zp b) 3 oraA s

/-- $09, R175: ORA imm, 2 cycles. -/
def execOraImm (v : Byte) (s : State) : Result :=
  readOp (.imm v) 2 oraA s

/-- $0D, R175: ORA abs, 4 cycles. -/
def execOraAbs (a : Word) (s : State) : Result :=
  readOp (.abs a) 4 oraA s

/-- $11, R175: ORA izy, 5+p cycles. -/
def execOraIzy (b : Byte) (s : State) : Result :=
  readOp (.izy b) 5 oraA s

/-- $15, R175: ORA zpx, 4 cycles. -/
def execOraZpx (b : Byte) (s : State) : Result :=
  readOp (.zpx b) 4 oraA s

/-- $19, R175: ORA absy, 4+p cycles. -/
def execOraAbsy (a : Word) (s : State) : Result :=
  readOp (.absy a) 4 oraA s

/-- $1D, R175: ORA absx, 4+p cycles. -/
def execOraAbsx (a : Word) (s : State) : Result :=
  readOp (.absx a) 4 oraA s

/-- $41, R176: EOR izx, 6 cycles. -/
def execEorIzx (b : Byte) (s : State) : Result :=
  readOp (.izx b) 6 eorA s

/-- $45, R176: EOR zp, 3 cycles. -/
def execEorZp (b : Byte) (s : State) : Result :=
  readOp (.zp b) 3 eorA s

/-- $49, R176: EOR imm, 2 cycles. -/
def execEorImm (v : Byte) (s : State) : Result :=
  readOp (.imm v) 2 eorA s

/-- $4D, R176: EOR abs, 4 cycles. -/
def execEorAbs (a : Word) (s : State) : Result :=
  readOp (.abs a) 4 eorA s

/-- $51, R176: EOR izy, 5+p cycles. -/
def execEorIzy (b : Byte) (s : State) : Result :=
  readOp (.izy b) 5 eorA s

/-- $55, R176: EOR zpx, 4 cycles. -/
def execEorZpx (b : Byte) (s : State) : Result :=
  readOp (.zpx b) 4 eorA s

/-- $59, R176: EOR absy, 4+p cycles. -/
def execEorAbsy (a : Word) (s : State) : Result :=
  readOp (.absy a) 4 eorA s

/-- $5D, R176: EOR absx, 4+p cycles. -/
def execEorAbsx (a : Word) (s : State) : Result :=
  readOp (.absx a) 4 eorA s

/-- $C1, R177: CMP izx, 6 cycles. -/
def execCmpIzx (b : Byte) (s : State) : Result :=
  readOp (.izx b) 6 cmp s

/-- $C5, R177: CMP zp, 3 cycles. -/
def execCmpZp (b : Byte) (s : State) : Result :=
  readOp (.zp b) 3 cmp s

/-- $C9, R177: CMP imm, 2 cycles. -/
def execCmpImm (v : Byte) (s : State) : Result :=
  readOp (.imm v) 2 cmp s

/-- $CD, R177: CMP abs, 4 cycles. -/
def execCmpAbs (a : Word) (s : State) : Result :=
  readOp (.abs a) 4 cmp s

/-- $D1, R177: CMP izy, 5+p cycles. -/
def execCmpIzy (b : Byte) (s : State) : Result :=
  readOp (.izy b) 5 cmp s

/-- $D5, R177: CMP zpx, 4 cycles. -/
def execCmpZpx (b : Byte) (s : State) : Result :=
  readOp (.zpx b) 4 cmp s

/-- $D9, R177: CMP absy, 4+p cycles. -/
def execCmpAbsy (a : Word) (s : State) : Result :=
  readOp (.absy a) 4 cmp s

/-- $DD, R177: CMP absx, 4+p cycles. -/
def execCmpAbsx (a : Word) (s : State) : Result :=
  readOp (.absx a) 4 cmp s

/-- $E0, R178: CPX imm, 2 cycles. -/
def execCpxImm (v : Byte) (s : State) : Result :=
  readOp (.imm v) 2 cpx s

/-- $E4, R178: CPX zp, 3 cycles. -/
def execCpxZp (b : Byte) (s : State) : Result :=
  readOp (.zp b) 3 cpx s

/-- $EC, R178: CPX abs, 4 cycles. -/
def execCpxAbs (a : Word) (s : State) : Result :=
  readOp (.abs a) 4 cpx s

/-- $C0, R179: CPY imm, 2 cycles. -/
def execCpyImm (v : Byte) (s : State) : Result :=
  readOp (.imm v) 2 cpy s

/-- $C4, R179: CPY zp, 3 cycles. -/
def execCpyZp (b : Byte) (s : State) : Result :=
  readOp (.zp b) 3 cpy s

/-- $CC, R179: CPY abs, 4 cycles. -/
def execCpyAbs (a : Word) (s : State) : Result :=
  readOp (.abs a) 4 cpy s

/-- $24, R180: BIT zp, 3 cycles. -/
def execBitZp (b : Byte) (s : State) : Result :=
  readOp (.zp b) 3 bitTest s

/-- $2C, R180: BIT abs, 4 cycles. -/
def execBitAbs (a : Word) (s : State) : Result :=
  readOp (.abs a) 4 bitTest s

/-- $E6, R181: INC zp, 5 cycles. -/
def execIncZp (b : Byte) (s : State) : Result :=
  rmwOp (.zp b) 5 incModify noSecond s

/-- $EE, R181: INC abs, 6 cycles. -/
def execIncAbs (a : Word) (s : State) : Result :=
  rmwOp (.abs a) 6 incModify noSecond s

/-- $F6, R181: INC zpx, 6 cycles. -/
def execIncZpx (b : Byte) (s : State) : Result :=
  rmwOp (.zpx b) 6 incModify noSecond s

/-- $FE, R181: INC absx, 7 cycles. -/
def execIncAbsx (a : Word) (s : State) : Result :=
  rmwOp (.absx a) 7 incModify noSecond s

/-- $C6, R182: DEC zp, 5 cycles. -/
def execDecZp (b : Byte) (s : State) : Result :=
  rmwOp (.zp b) 5 decModify noSecond s

/-- $CE, R182: DEC abs, 6 cycles. -/
def execDecAbs (a : Word) (s : State) : Result :=
  rmwOp (.abs a) 6 decModify noSecond s

/-- $D6, R182: DEC zpx, 6 cycles. -/
def execDecZpx (b : Byte) (s : State) : Result :=
  rmwOp (.zpx b) 6 decModify noSecond s

/-- $DE, R182: DEC absx, 7 cycles. -/
def execDecAbsx (a : Word) (s : State) : Result :=
  rmwOp (.absx a) 7 decModify noSecond s

/-- $E8, R183: INX, 2 cycles: `X <- (X + 1) & 0xFF; SetNZ(X)`. -/
def execInx (s : State) : Result :=
  impliedOp 2 (fun t => t.setX (t.x + 1)) s

/-- $C8, R184: INY, 2 cycles: `Y <- (Y + 1) & 0xFF; SetNZ(Y)`. -/
def execIny (s : State) : Result :=
  impliedOp 2 (fun t => t.setY (t.y + 1)) s

/-- $CA, R185: DEX, 2 cycles: `X <- (X - 1) & 0xFF; SetNZ(X)`. -/
def execDex (s : State) : Result :=
  impliedOp 2 (fun t => t.setX (t.x - 1)) s

/-- $88, R186: DEY, 2 cycles: `Y <- (Y - 1) & 0xFF; SetNZ(Y)`. -/
def execDey (s : State) : Result :=
  impliedOp 2 (fun t => t.setY (t.y - 1)) s

end Sys2Proof.Machine
end

