-- ==== Sys2Proof/Machine/Control.lean ====
section
/-! DEFINITION. Branches, jumps, subroutines, RTI and BRK (45_control_transfer.md R230 to R245). PC is the
address `p` of the opcode when a meaning runs. -/
namespace Sys2Proof.Machine

/-- `lo <- MemRead(a, 1); hi <- MemRead(a', 1)` with a' one past a but on the same page: the JMP indirect
page wrap (30_encoding.md R99; 90_conflicts.md C7). -/
def State.readWordSamePage (s : State) (a : Word) : Word × State :=
  let r := (s.read a).2.read (mkWord (hiByte a) (loByte a + 1))
  (mkWord r.1 (s.read a).1, r.2)

/-- $10, R231: BPL: branch if N = 0. -/
def execBpl (off : Byte) (s : State) : Result :=
  branchOp (fun t => !t.p.n) off s

/-- $30, R232: BMI: branch if N = 1. -/
def execBmi (off : Byte) (s : State) : Result :=
  branchOp (fun t => t.p.n) off s

/-- $50, R233: BVC: branch if V = 0. -/
def execBvc (off : Byte) (s : State) : Result :=
  branchOp (fun t => !t.p.v) off s

/-- $70, R234: BVS: branch if V = 1. -/
def execBvs (off : Byte) (s : State) : Result :=
  branchOp (fun t => t.p.v) off s

/-- $90, R235: BCC: branch if C = 0. -/
def execBcc (off : Byte) (s : State) : Result :=
  branchOp (fun t => !t.p.c) off s

/-- $B0, R236: BCS: branch if C = 1. -/
def execBcs (off : Byte) (s : State) : Result :=
  branchOp (fun t => t.p.c) off s

/-- $D0, R237: BNE: branch if Z = 0. -/
def execBne (off : Byte) (s : State) : Result :=
  branchOp (fun t => !t.p.z) off s

/-- $F0, R238: BEQ: branch if Z = 1. -/
def execBeq (off : Byte) (s : State) : Result :=
  branchOp (fun t => t.p.z) off s

/-- $4C, R239: JMP absolute. -/
def execJmpAbs (a : Word) (s : State) : Result := .next (({ s with pc := a } : State).tick 3)

/-- $6C, R240: JMP indirect, with the page wrap of its pointer. -/
def execJmpInd (a : Word) (s : State) : Result :=
  .next (({ (s.readWordSamePage a).2 with pc := (s.readWordSamePage a).1 } : State).tick 5)

/-- $20, R241: JSR. Pushes `p + 2`, the address of its last byte, then `PC <- (b2, b1)`. -/
def execJsr (a : Word) (s : State) : Result :=
  .next (({ s.pushWord (s.pc + 2) with pc := a } : State).tick 6)

/-- $60, R242: RTS, 6 cycles: `lo <- Pull(); hi <- Pull(); PC <- {hi, lo} + 1`. -/
def execRts (s : State) : Result :=
  impliedOp 6 (fun t => { t.pullWord.2 with pc := t.pullWord.1 + 1 }) s

/-- $40, R244: RTI, 6 cycles: P, then PC, from the stack. -/
def execRti (s : State) : Result :=
  impliedOp 6 (fun t => t.returnFromInterrupt) s

/-- $00, R245: BRK. The pushed address is `p + 2`; the signature byte is not read. Under `debugBreak` it
stops with no state change. -/
def execBrk (s : State) : Result :=
  if s.launch.debugBreak then .fault (.breakEncountered s.pc)
  else .next ((s.takeInterrupt (s.pc + 2) s.p.pushedByInstruction irqVector).tick 7)

end Sys2Proof.Machine
end

