-- ==== Sys2Proof/Machine/LoadStore.lean ====
section
/-! DEFINITION. Loads, stores and register transfers (41_load_store_transfer.md R150 to R161). -/
namespace Sys2Proof.Machine

/-- LDA: `A <- M; SetNZ(A)` (R150). -/
def lda (m : Byte) (s : State) : State := s.setA m

/-- LDX: `X <- M; SetNZ(X)` (R151). -/
def ldx (m : Byte) (s : State) : State := s.setX m

/-- LDY: `Y <- M; SetNZ(Y)` (R152). -/
def ldy (m : Byte) (s : State) : State := s.setY m

/-- $A1, R150: LDA izx, 6 cycles. -/
def execLdaIzx (b : Byte) (s : State) : Result :=
  readOp (.izx b) 6 lda s

/-- $A5, R150: LDA zp, 3 cycles. -/
def execLdaZp (b : Byte) (s : State) : Result :=
  readOp (.zp b) 3 lda s

/-- $A9, R150: LDA imm, 2 cycles. -/
def execLdaImm (v : Byte) (s : State) : Result :=
  readOp (.imm v) 2 lda s

/-- $AD, R150: LDA abs, 4 cycles. -/
def execLdaAbs (a : Word) (s : State) : Result :=
  readOp (.abs a) 4 lda s

/-- $B1, R150: LDA izy, 5+p cycles. -/
def execLdaIzy (b : Byte) (s : State) : Result :=
  readOp (.izy b) 5 lda s

/-- $B5, R150: LDA zpx, 4 cycles. -/
def execLdaZpx (b : Byte) (s : State) : Result :=
  readOp (.zpx b) 4 lda s

/-- $B9, R150: LDA absy, 4+p cycles. -/
def execLdaAbsy (a : Word) (s : State) : Result :=
  readOp (.absy a) 4 lda s

/-- $BD, R150: LDA absx, 4+p cycles. -/
def execLdaAbsx (a : Word) (s : State) : Result :=
  readOp (.absx a) 4 lda s

/-- $A2, R151: LDX imm, 2 cycles. -/
def execLdxImm (v : Byte) (s : State) : Result :=
  readOp (.imm v) 2 ldx s

/-- $A6, R151: LDX zp, 3 cycles. -/
def execLdxZp (b : Byte) (s : State) : Result :=
  readOp (.zp b) 3 ldx s

/-- $AE, R151: LDX abs, 4 cycles. -/
def execLdxAbs (a : Word) (s : State) : Result :=
  readOp (.abs a) 4 ldx s

/-- $B6, R151: LDX zpy, 4 cycles. -/
def execLdxZpy (b : Byte) (s : State) : Result :=
  readOp (.zpy b) 4 ldx s

/-- $BE, R151: LDX absy, 4+p cycles. -/
def execLdxAbsy (a : Word) (s : State) : Result :=
  readOp (.absy a) 4 ldx s

/-- $A0, R152: LDY imm, 2 cycles. -/
def execLdyImm (v : Byte) (s : State) : Result :=
  readOp (.imm v) 2 ldy s

/-- $A4, R152: LDY zp, 3 cycles. -/
def execLdyZp (b : Byte) (s : State) : Result :=
  readOp (.zp b) 3 ldy s

/-- $AC, R152: LDY abs, 4 cycles. -/
def execLdyAbs (a : Word) (s : State) : Result :=
  readOp (.abs a) 4 ldy s

/-- $B4, R152: LDY zpx, 4 cycles. -/
def execLdyZpx (b : Byte) (s : State) : Result :=
  readOp (.zpx b) 4 ldy s

/-- $BC, R152: LDY absx, 4+p cycles. -/
def execLdyAbsx (a : Word) (s : State) : Result :=
  readOp (.absx a) 4 ldy s

/-- $81, R153: STA izx, 6 cycles. -/
def execStaIzx (b : Byte) (s : State) : Result :=
  writeOp (.izx b) 6 State.a s

/-- $85, R153: STA zp, 3 cycles. -/
def execStaZp (b : Byte) (s : State) : Result :=
  writeOp (.zp b) 3 State.a s

/-- $8D, R153: STA abs, 4 cycles. -/
def execStaAbs (a : Word) (s : State) : Result :=
  writeOp (.abs a) 4 State.a s

/-- $91, R153: STA izy, 6 cycles. -/
def execStaIzy (b : Byte) (s : State) : Result :=
  writeOp (.izy b) 6 State.a s

/-- $95, R153: STA zpx, 4 cycles. -/
def execStaZpx (b : Byte) (s : State) : Result :=
  writeOp (.zpx b) 4 State.a s

/-- $99, R153: STA absy, 5 cycles. -/
def execStaAbsy (a : Word) (s : State) : Result :=
  writeOp (.absy a) 5 State.a s

/-- $9D, R153: STA absx, 5 cycles. -/
def execStaAbsx (a : Word) (s : State) : Result :=
  writeOp (.absx a) 5 State.a s

/-- $86, R154: STX zp, 3 cycles. -/
def execStxZp (b : Byte) (s : State) : Result :=
  writeOp (.zp b) 3 State.x s

/-- $8E, R154: STX abs, 4 cycles. -/
def execStxAbs (a : Word) (s : State) : Result :=
  writeOp (.abs a) 4 State.x s

/-- $96, R154: STX zpy, 4 cycles. -/
def execStxZpy (b : Byte) (s : State) : Result :=
  writeOp (.zpy b) 4 State.x s

/-- $84, R155: STY zp, 3 cycles. -/
def execStyZp (b : Byte) (s : State) : Result :=
  writeOp (.zp b) 3 State.y s

/-- $8C, R155: STY abs, 4 cycles. -/
def execStyAbs (a : Word) (s : State) : Result :=
  writeOp (.abs a) 4 State.y s

/-- $94, R155: STY zpx, 4 cycles. -/
def execStyZpx (b : Byte) (s : State) : Result :=
  writeOp (.zpx b) 4 State.y s

/-- $AA, R156: TAX, 2 cycles: `X <- A; SetNZ(X)`. -/
def execTax (s : State) : Result :=
  impliedOp 2 (fun t => t.setX t.a) s

/-- $A8, R157: TAY, 2 cycles: `Y <- A; SetNZ(Y)`. -/
def execTay (s : State) : Result :=
  impliedOp 2 (fun t => t.setY t.a) s

/-- $8A, R158: TXA, 2 cycles: `A <- X; SetNZ(A)`. -/
def execTxa (s : State) : Result :=
  impliedOp 2 (fun t => t.setA t.x) s

/-- $98, R159: TYA, 2 cycles: `A <- Y; SetNZ(A)`. -/
def execTya (s : State) : Result :=
  impliedOp 2 (fun t => t.setA t.y) s

/-- $BA, R160: TSX, 2 cycles: `X <- SP; SetNZ(X)`. -/
def execTsx (s : State) : Result :=
  impliedOp 2 (fun t => t.setX t.sp) s

/-- $9A, R161: TXS, 2 cycles: `SP <- X`, no flag. -/
def execTxs (s : State) : Result :=
  impliedOp 2 (fun t => { t with sp := t.x }) s

end Sys2Proof.Machine
end

