-- ==== Sys2Proof/Machine/Shift.lean ====
section
/-! DEFINITION. Shifts and rotates (43_shift_rotate.md R200 to R204). -/
namespace Sys2Proof.Machine

/-- $06, R201: ASL zp, 5 cycles. -/
def execAslZp (b : Byte) (s : State) : Result :=
  rmwOp (.zp b) 5 (shiftModify aslOp) noSecond s

/-- $0A, R201: ASL A, 2 cycles. -/
def execAslAcc (s : State) : Result :=
  shiftAcc aslOp s

/-- $0E, R201: ASL abs, 6 cycles. -/
def execAslAbs (a : Word) (s : State) : Result :=
  rmwOp (.abs a) 6 (shiftModify aslOp) noSecond s

/-- $16, R201: ASL zpx, 6 cycles. -/
def execAslZpx (b : Byte) (s : State) : Result :=
  rmwOp (.zpx b) 6 (shiftModify aslOp) noSecond s

/-- $1E, R201: ASL absx, 7 cycles. -/
def execAslAbsx (a : Word) (s : State) : Result :=
  rmwOp (.absx a) 7 (shiftModify aslOp) noSecond s

/-- $46, R202: LSR zp, 5 cycles. -/
def execLsrZp (b : Byte) (s : State) : Result :=
  rmwOp (.zp b) 5 (shiftModify lsrOp) noSecond s

/-- $4A, R202: LSR A, 2 cycles. -/
def execLsrAcc (s : State) : Result :=
  shiftAcc lsrOp s

/-- $4E, R202: LSR abs, 6 cycles. -/
def execLsrAbs (a : Word) (s : State) : Result :=
  rmwOp (.abs a) 6 (shiftModify lsrOp) noSecond s

/-- $56, R202: LSR zpx, 6 cycles. -/
def execLsrZpx (b : Byte) (s : State) : Result :=
  rmwOp (.zpx b) 6 (shiftModify lsrOp) noSecond s

/-- $5E, R202: LSR absx, 7 cycles. -/
def execLsrAbsx (a : Word) (s : State) : Result :=
  rmwOp (.absx a) 7 (shiftModify lsrOp) noSecond s

/-- $26, R203: ROL zp, 5 cycles. -/
def execRolZp (b : Byte) (s : State) : Result :=
  rmwOp (.zp b) 5 (shiftModify rolOp) noSecond s

/-- $2A, R203: ROL A, 2 cycles. -/
def execRolAcc (s : State) : Result :=
  shiftAcc rolOp s

/-- $2E, R203: ROL abs, 6 cycles. -/
def execRolAbs (a : Word) (s : State) : Result :=
  rmwOp (.abs a) 6 (shiftModify rolOp) noSecond s

/-- $36, R203: ROL zpx, 6 cycles. -/
def execRolZpx (b : Byte) (s : State) : Result :=
  rmwOp (.zpx b) 6 (shiftModify rolOp) noSecond s

/-- $3E, R203: ROL absx, 7 cycles. -/
def execRolAbsx (a : Word) (s : State) : Result :=
  rmwOp (.absx a) 7 (shiftModify rolOp) noSecond s

/-- $66, R204: ROR zp, 5 cycles. -/
def execRorZp (b : Byte) (s : State) : Result :=
  rmwOp (.zp b) 5 (shiftModify rorOp) noSecond s

/-- $6A, R204: ROR A, 2 cycles. -/
def execRorAcc (s : State) : Result :=
  shiftAcc rorOp s

/-- $6E, R204: ROR abs, 6 cycles. -/
def execRorAbs (a : Word) (s : State) : Result :=
  rmwOp (.abs a) 6 (shiftModify rorOp) noSecond s

/-- $76, R204: ROR zpx, 6 cycles. -/
def execRorZpx (b : Byte) (s : State) : Result :=
  rmwOp (.zpx b) 6 (shiftModify rorOp) noSecond s

/-- $7E, R204: ROR absx, 7 cycles. -/
def execRorAbsx (a : Word) (s : State) : Result :=
  rmwOp (.absx a) 7 (shiftModify rorOp) noSecond s

end Sys2Proof.Machine
end

