-- ==== Sys2Proof/Machine/StackFlag.lean ====
section
/-! DEFINITION. Stack instructions, flag instructions and NOP (44_stack_flags_nop.md R210 to R221). -/
namespace Sys2Proof.Machine

/-- $08, R210: PHP, 3 cycles: `Push(P | 0x30)`. -/
def execPhp (s : State) : Result :=
  impliedOp 3 (fun t => t.push t.p.pushedByInstruction) s

/-- $48, R211: PHA, 3 cycles: `Push(A)`. -/
def execPha (s : State) : Result :=
  impliedOp 3 (fun t => t.push t.a) s

/-- $68, R212: PLA, 4 cycles: `A <- Pull(); SetNZ(A)`. -/
def execPla (s : State) : Result :=
  impliedOp 4 (fun t => t.pull.2.setA t.pull.1) s

/-- $28, R213: PLP, 4 cycles: `v <- Pull(); P <- (v & ~0x10) | 0x20`. -/
def execPlp (s : State) : Result :=
  impliedOp 4 (fun t => t.pull.2.setP (Status.pulledByPlp t.pull.1)) s

/-- $18, R214: CLC, 2 cycles: `P.C <- 0`. -/
def execClc (s : State) : Result :=
  impliedOp 2 (fun t => t.setP { t.p with c := false }) s

/-- $38, R215: SEC, 2 cycles: `P.C <- 1`. -/
def execSec (s : State) : Result :=
  impliedOp 2 (fun t => t.setP { t.p with c := true }) s

/-- $58, R216: CLI, 2 cycles: `P.I <- 0`. -/
def execCli (s : State) : Result :=
  impliedOp 2 (fun t => t.setP { t.p with i := false }) s

/-- $78, R217: SEI, 2 cycles: `P.I <- 1`. -/
def execSei (s : State) : Result :=
  impliedOp 2 (fun t => t.setP { t.p with i := true }) s

/-- $B8, R218: CLV, 2 cycles: `P.V <- 0`. -/
def execClv (s : State) : Result :=
  impliedOp 2 (fun t => t.setP { t.p with v := false }) s

/-- $D8, R219: CLD, 2 cycles: `P.D <- 0`. -/
def execCld (s : State) : Result :=
  impliedOp 2 (fun t => t.setP { t.p with d := false }) s

/-- $F8, R220: SED, 2 cycles: `P.D <- 1`. -/
def execSed (s : State) : Result :=
  impliedOp 2 (fun t => t.setP { t.p with d := true }) s

/-- $EA, R221: NOP imp, 2 cycles. -/
def execNop (s : State) : Result :=
  nopOp .implied 2 s

end Sys2Proof.Machine
end

