-- ==== Sys2Proof/Machine/Unofficial.lean ====
section
/-! DEFINITION. The unofficial opcodes, JAM and the unstable group (46_unofficial.md R260 to R285). -/
namespace Sys2Proof.Machine

/-- `modify` of the increment part of ISC: the second operation writes all its flags
(46_unofficial.md R260, R268). -/
def incOnly (v : Byte) (s : State) : Byte × State := (v + 1, s)

/-- `modify` of the decrement part of DCP (46_unofficial.md R260, R267). -/
def decOnly (v : Byte) (s : State) : Byte × State := (v - 1, s)

/-- LAX: `A <- M; X <- M; SetNZ(M)` (R266). -/
def lax (m : Byte) (s : State) : State := { s.setA m with x := m }

/-- ANC: `A <- A & b1; SetNZ(A); P.C <- A[7]` (R269). -/
def anc (m : Byte) (s : State) : State := { s with a := s.a &&& m, p := s.p.afterAnc (s.a &&& m) }

/-- ALR: `t <- A & b1; P.C <- t[0]; A <- t >> 1; SetNZ(A)` (R270). -/
def alr (m : Byte) (s : State) : State :=
  { s with a := (lsrOp (s.a &&& m) s.p.c).1, p := s.p.afterShift (lsrOp (s.a &&& m) s.p.c) }

/-- ARR: `t <- A & b1; A <- (t >> 1) | (P.C << 7)`, with its own C and V (R271). -/
def arr (m : Byte) (s : State) : State :=
  { s with a := (rorOp (s.a &&& m) s.p.c).1, p := s.p.afterArr (rorOp (s.a &&& m) s.p.c).1 }

/-- AXS: `t <- A & X; X <- (t - b1) & 0xFF` (R272). -/
def axs (m : Byte) (s : State) : State :=
  { s with x := (s.a &&& s.x) - m, p := s.p.afterAxs (s.a &&& s.x) m }

/-- $03, R261: SLO izx, 8 cycles. -/
def execSloIzx (b : Byte) (s : State) : Result :=
  rmwOp (.izx b) 8 (carryModify aslOp) oraA s

/-- $07, R261: SLO zp, 5 cycles. -/
def execSloZp (b : Byte) (s : State) : Result :=
  rmwOp (.zp b) 5 (carryModify aslOp) oraA s

/-- $0F, R261: SLO abs, 6 cycles. -/
def execSloAbs (a : Word) (s : State) : Result :=
  rmwOp (.abs a) 6 (carryModify aslOp) oraA s

/-- $13, R261: SLO izy, 8 cycles. -/
def execSloIzy (b : Byte) (s : State) : Result :=
  rmwOp (.izy b) 8 (carryModify aslOp) oraA s

/-- $17, R261: SLO zpx, 6 cycles. -/
def execSloZpx (b : Byte) (s : State) : Result :=
  rmwOp (.zpx b) 6 (carryModify aslOp) oraA s

/-- $1B, R261: SLO absy, 7 cycles. -/
def execSloAbsy (a : Word) (s : State) : Result :=
  rmwOp (.absy a) 7 (carryModify aslOp) oraA s

/-- $1F, R261: SLO absx, 7 cycles. -/
def execSloAbsx (a : Word) (s : State) : Result :=
  rmwOp (.absx a) 7 (carryModify aslOp) oraA s

/-- $23, R262: RLA izx, 8 cycles. -/
def execRlaIzx (b : Byte) (s : State) : Result :=
  rmwOp (.izx b) 8 (carryModify rolOp) andA s

/-- $27, R262: RLA zp, 5 cycles. -/
def execRlaZp (b : Byte) (s : State) : Result :=
  rmwOp (.zp b) 5 (carryModify rolOp) andA s

/-- $2F, R262: RLA abs, 6 cycles. -/
def execRlaAbs (a : Word) (s : State) : Result :=
  rmwOp (.abs a) 6 (carryModify rolOp) andA s

/-- $33, R262: RLA izy, 8 cycles. -/
def execRlaIzy (b : Byte) (s : State) : Result :=
  rmwOp (.izy b) 8 (carryModify rolOp) andA s

/-- $37, R262: RLA zpx, 6 cycles. -/
def execRlaZpx (b : Byte) (s : State) : Result :=
  rmwOp (.zpx b) 6 (carryModify rolOp) andA s

/-- $3B, R262: RLA absy, 7 cycles. -/
def execRlaAbsy (a : Word) (s : State) : Result :=
  rmwOp (.absy a) 7 (carryModify rolOp) andA s

/-- $3F, R262: RLA absx, 7 cycles. -/
def execRlaAbsx (a : Word) (s : State) : Result :=
  rmwOp (.absx a) 7 (carryModify rolOp) andA s

/-- $43, R263: SRE izx, 8 cycles. -/
def execSreIzx (b : Byte) (s : State) : Result :=
  rmwOp (.izx b) 8 (carryModify lsrOp) eorA s

/-- $47, R263: SRE zp, 5 cycles. -/
def execSreZp (b : Byte) (s : State) : Result :=
  rmwOp (.zp b) 5 (carryModify lsrOp) eorA s

/-- $4F, R263: SRE abs, 6 cycles. -/
def execSreAbs (a : Word) (s : State) : Result :=
  rmwOp (.abs a) 6 (carryModify lsrOp) eorA s

/-- $53, R263: SRE izy, 8 cycles. -/
def execSreIzy (b : Byte) (s : State) : Result :=
  rmwOp (.izy b) 8 (carryModify lsrOp) eorA s

/-- $57, R263: SRE zpx, 6 cycles. -/
def execSreZpx (b : Byte) (s : State) : Result :=
  rmwOp (.zpx b) 6 (carryModify lsrOp) eorA s

/-- $5B, R263: SRE absy, 7 cycles. -/
def execSreAbsy (a : Word) (s : State) : Result :=
  rmwOp (.absy a) 7 (carryModify lsrOp) eorA s

/-- $5F, R263: SRE absx, 7 cycles. -/
def execSreAbsx (a : Word) (s : State) : Result :=
  rmwOp (.absx a) 7 (carryModify lsrOp) eorA s

/-- $63, R264: RRA izx, 8 cycles. -/
def execRraIzx (b : Byte) (s : State) : Result :=
  rmwOp (.izx b) 8 (carryModify rorOp) adc s

/-- $67, R264: RRA zp, 5 cycles. -/
def execRraZp (b : Byte) (s : State) : Result :=
  rmwOp (.zp b) 5 (carryModify rorOp) adc s

/-- $6F, R264: RRA abs, 6 cycles. -/
def execRraAbs (a : Word) (s : State) : Result :=
  rmwOp (.abs a) 6 (carryModify rorOp) adc s

/-- $73, R264: RRA izy, 8 cycles. -/
def execRraIzy (b : Byte) (s : State) : Result :=
  rmwOp (.izy b) 8 (carryModify rorOp) adc s

/-- $77, R264: RRA zpx, 6 cycles. -/
def execRraZpx (b : Byte) (s : State) : Result :=
  rmwOp (.zpx b) 6 (carryModify rorOp) adc s

/-- $7B, R264: RRA absy, 7 cycles. -/
def execRraAbsy (a : Word) (s : State) : Result :=
  rmwOp (.absy a) 7 (carryModify rorOp) adc s

/-- $7F, R264: RRA absx, 7 cycles. -/
def execRraAbsx (a : Word) (s : State) : Result :=
  rmwOp (.absx a) 7 (carryModify rorOp) adc s

/-- $83, R265: SAX izx, 6 cycles. -/
def execSaxIzx (b : Byte) (s : State) : Result :=
  writeOp (.izx b) 6 (fun t => t.a &&& t.x) s

/-- $87, R265: SAX zp, 3 cycles. -/
def execSaxZp (b : Byte) (s : State) : Result :=
  writeOp (.zp b) 3 (fun t => t.a &&& t.x) s

/-- $8F, R265: SAX abs, 4 cycles. -/
def execSaxAbs (a : Word) (s : State) : Result :=
  writeOp (.abs a) 4 (fun t => t.a &&& t.x) s

/-- $97, R265: SAX zpy, 4 cycles. -/
def execSaxZpy (b : Byte) (s : State) : Result :=
  writeOp (.zpy b) 4 (fun t => t.a &&& t.x) s

/-- $A3, R266: LAX izx, 6 cycles. -/
def execLaxIzx (b : Byte) (s : State) : Result :=
  readOp (.izx b) 6 lax s

/-- $A7, R266: LAX zp, 3 cycles. -/
def execLaxZp (b : Byte) (s : State) : Result :=
  readOp (.zp b) 3 lax s

/-- $AF, R266: LAX abs, 4 cycles. -/
def execLaxAbs (a : Word) (s : State) : Result :=
  readOp (.abs a) 4 lax s

/-- $B3, R266: LAX izy, 5+p cycles. -/
def execLaxIzy (b : Byte) (s : State) : Result :=
  readOp (.izy b) 5 lax s

/-- $B7, R266: LAX zpy, 4 cycles. -/
def execLaxZpy (b : Byte) (s : State) : Result :=
  readOp (.zpy b) 4 lax s

/-- $BF, R266: LAX absy, 4+p cycles. -/
def execLaxAbsy (a : Word) (s : State) : Result :=
  readOp (.absy a) 4 lax s

/-- $C3, R267: DCP izx, 8 cycles. -/
def execDcpIzx (b : Byte) (s : State) : Result :=
  rmwOp (.izx b) 8 decOnly cmp s

/-- $C7, R267: DCP zp, 5 cycles. -/
def execDcpZp (b : Byte) (s : State) : Result :=
  rmwOp (.zp b) 5 decOnly cmp s

/-- $CF, R267: DCP abs, 6 cycles. -/
def execDcpAbs (a : Word) (s : State) : Result :=
  rmwOp (.abs a) 6 decOnly cmp s

/-- $D3, R267: DCP izy, 8 cycles. -/
def execDcpIzy (b : Byte) (s : State) : Result :=
  rmwOp (.izy b) 8 decOnly cmp s

/-- $D7, R267: DCP zpx, 6 cycles. -/
def execDcpZpx (b : Byte) (s : State) : Result :=
  rmwOp (.zpx b) 6 decOnly cmp s

/-- $DB, R267: DCP absy, 7 cycles. -/
def execDcpAbsy (a : Word) (s : State) : Result :=
  rmwOp (.absy a) 7 decOnly cmp s

/-- $DF, R267: DCP absx, 7 cycles. -/
def execDcpAbsx (a : Word) (s : State) : Result :=
  rmwOp (.absx a) 7 decOnly cmp s

/-- $E3, R268: ISC izx, 8 cycles. -/
def execIscIzx (b : Byte) (s : State) : Result :=
  rmwOp (.izx b) 8 incOnly sbc s

/-- $E7, R268: ISC zp, 5 cycles. -/
def execIscZp (b : Byte) (s : State) : Result :=
  rmwOp (.zp b) 5 incOnly sbc s

/-- $EF, R268: ISC abs, 6 cycles. -/
def execIscAbs (a : Word) (s : State) : Result :=
  rmwOp (.abs a) 6 incOnly sbc s

/-- $F3, R268: ISC izy, 8 cycles. -/
def execIscIzy (b : Byte) (s : State) : Result :=
  rmwOp (.izy b) 8 incOnly sbc s

/-- $F7, R268: ISC zpx, 6 cycles. -/
def execIscZpx (b : Byte) (s : State) : Result :=
  rmwOp (.zpx b) 6 incOnly sbc s

/-- $FB, R268: ISC absy, 7 cycles. -/
def execIscAbsy (a : Word) (s : State) : Result :=
  rmwOp (.absy a) 7 incOnly sbc s

/-- $FF, R268: ISC absx, 7 cycles. -/
def execIscAbsx (a : Word) (s : State) : Result :=
  rmwOp (.absx a) 7 incOnly sbc s

/-- $0B $2B, R269: ANC imm, 2 cycles. -/
def execAnc (_op : Byte) (v : Byte) (s : State) : Result :=
  readOp (.imm v) 2 anc s

/-- $4B, R270: ALR imm, 2 cycles. -/
def execAlr (v : Byte) (s : State) : Result :=
  readOp (.imm v) 2 alr s

/-- $6B, R271: ARR imm, 2 cycles. -/
def execArr (v : Byte) (s : State) : Result :=
  readOp (.imm v) 2 arr s

/-- $CB, R272: AXS imm, 2 cycles. -/
def execAxs (v : Byte) (s : State) : Result :=
  readOp (.imm v) 2 axs s

/-- $EB, R273: SBC imm, 2 cycles. -/
def execSbcEB (v : Byte) (s : State) : Result :=
  readOp (.imm v) 2 sbc s

/-- $1A $3A $5A $7A $DA $FA, R274: NOP imp, 2 cycles. -/
def execNopImplied (_op : Byte) (s : State) : Result :=
  nopOp .implied 2 s

/-- $80 $82 $89 $C2 $E2, R275: NOP imm, 2 cycles. -/
def execNopImm (_op : Byte) (v : Byte) (s : State) : Result :=
  nopOp (.imm v) 2 s

/-- $04 $44 $64, R276: NOP zp, 3 cycles. -/
def execNopZp (_op : Byte) (b : Byte) (s : State) : Result :=
  nopOp (.zp b) 3 s

/-- $0C, R276: NOP abs, 4 cycles. -/
def execNopAbs (a : Word) (s : State) : Result :=
  nopOp (.abs a) 4 s

/-- $14 $34 $54 $74 $D4 $F4, R276: NOP zpx, 4 cycles. -/
def execNopZpx (_op : Byte) (b : Byte) (s : State) : Result :=
  nopOp (.zpx b) 4 s

/-- $1C $3C $5C $7C $DC $FC, R276: NOP absx, 4+p cycles. -/
def execNopAbsx (_op : Byte) (a : Word) (s : State) : Result :=
  nopOp (.absx a) 4 s

/-- $02 $12 $22 $32 $42 $52 $62 $72 $92 $B2 $D2 $F2, R277: JAM. Halts the core with PC = p + 1 and counts no
cycle; every later step is `halt Jammed` until a reset (40_execution_cycle.md R122; log 1). -/
def execJam (_op : Byte) (s : State) : Result := .next { s.advance 1 with jammed := true }

/-- $8B: ANE imm, R279 and R278: no effect is modelled. -/
def execAne (_v : Byte) (s : State) : Result :=
  unstableOp 0x8B false s

/-- $AB: LXA imm, R280 and R278: no effect is modelled. -/
def execLxa (_v : Byte) (s : State) : Result :=
  unstableOp 0xAB false s

/-- $93: SHA izy, R281 and R278: no effect is modelled. -/
def execShaIzy (_b : Byte) (s : State) : Result :=
  unstableOp 0x93 true s

/-- $9F: SHA absy, R281 and R278: no effect is modelled. -/
def execShaAbsy (_a : Word) (s : State) : Result :=
  unstableOp 0x9F true s

/-- $9E: SHX absy, R282 and R278: no effect is modelled. -/
def execShx (_a : Word) (s : State) : Result :=
  unstableOp 0x9E true s

/-- $9C: SHY absx, R283 and R278: no effect is modelled. -/
def execShy (_a : Word) (s : State) : Result :=
  unstableOp 0x9C true s

/-- $9B: TAS absy, R284 and R278: no effect is modelled. -/
def execTas (_a : Word) (s : State) : Result :=
  unstableOp 0x9B true s

/-- $BB: LAS absy, R285 and R278: no effect is modelled. -/
def execLas (_a : Word) (s : State) : Result :=
  unstableOp 0xBB false s

end Sys2Proof.Machine
end

