-- ==== Sys2Proof/Machine/Cycle.lean ====
section
/-! DEFINITION. One turn of the synchronizer's loop (60_exceptions.md R330): what arrives at the step boundary
(R332, R334), the core's step (40_execution_cycle.md R120), the OAMDMA copy (R134) and the PPU dots that
follow it (60_exceptions.md R331). -/
namespace Sys2Proof.Machine

/-! ### What arrives at a step boundary -/

/-- The effect of one host event (60_exceptions.md R332, R334; 70_reset_and_hazards.md R351). `quit` has no
effect on the core: it ends the run (State.quits). -/
def HostEvent.apply (e : HostEvent) (s : State) : State :=
  match e with
  | .userReset => { s with resetPending := true }
  | .controller second button down =>
    { s with bus := { s.bus with pads := s.bus.pads.event second button down } }
  | .apuSequenceEnd => { s with bus := { s.bus with apu := s.bus.apu.sequenceEnd } }
  | .mapperIrq level => { s with bus := { s.bus with mapperIrq := level } }
  | .quit => s

/-- The events of the coming boundary. -/
def State.arriving (s : State) : List HostEvent := s.inputs.headD []

/-- The host's `quit` flag is set at the coming boundary (60_exceptions.md R333). -/
def State.quits (s : State) : Bool := s.arriving.contains .quit

/-- The state at the start of a step: the boundary's events have arrived, in order; the step's cycle count
is 0 and nothing has been written to $4014. -/
def State.beginStep (s : State) : State :=
  let t := s.arriving.foldl (fun t e => HostEvent.apply e t) s
  { t with inputs := s.inputs.tail, stepCycles := 0, bus := { t.bus with dmaPage := none } }

/-! ### The instruction of a step -/

/-- Opcode fetch, decode and operand fetch (40_execution_cycle.md R120, R127, R128; 30_encoding.md R80, R84):
the opcode byte at PC, then as many further bytes as its mode has, in ascending address order. PC stays at
the opcode; the meaning moves it. -/
def State.fetchInstr (s : State) : Instr × State :=
  let op := s.read s.pc
  match operandCount op.1 with
  | 0 => (instrOf op.1 0 0, op.2)
  | 1 =>
    let b1 := op.2.read (s.pc + 1)
    (instrOf op.1 b1.1 0, b1.2)
  | _ =>
    let b1 := op.2.read (s.pc + 1)
    let b2 := b1.2.read (s.pc + 2)
    (instrOf op.1 b1.1 b2.1, b2.2)

/-! ### OAMDMA -/

/-- The last `n` of the 256 copies of an OAMDMA: read `(page, i)`, write $2004 (40_execution_cycle.md R134). -/
def State.dmaCopy (page : Byte) : Nat → State → State
  | 0, s => s
  | n + 1, s =>
    let r := s.read (mkWord page (BitVec.ofNat 8 (255 - n)))
    State.dmaCopy page n (r.2.write 0x2004 r.1)

/-- OAMDMA, if the instruction wrote $4014: the whole copy, then the stall of 513 cycles, 514 when
`cycle_count` is odd (40_execution_cycle.md R134, R135). -/
def State.oamDma (s : State) : State :=
  match s.bus.dmaPage with
  | none => s
  | some page =>
    let t := State.dmaCopy page 256 { s with bus := { s.bus with dmaPage := none } }
    { t with stall := 513 + t.cycleCount % 2 }

/-- A stall step: one cycle, no bus access, no interrupt (40_execution_cycle.md R136). -/
def State.stallStep (s : State) : State := { s with stall := s.stall - 1 }.tick 1

/-! ### The PPU dots after a step -/

/-- One PPU dot, after which the synchronizer sets the NMI latch if the NMI output rose
(60_exceptions.md R302, R332). -/
def State.stepDot (s : State) : State :=
  let b := s.bus.stepDot
  { s with nmiLatch := s.nmiLatch || (!b.ppu.nmiPrev && b.ppu.nmiOut),
           bus := { b with ppu := { b.ppu with nmiPrev := b.ppu.nmiOut } } }

/-- `n` PPU dots. -/
def State.runDots : Nat → State → State
  | 0, s => s
  | n + 1, s => State.runDots n s.stepDot

/-- The dots of a step of `c` cycles, and the PAL budget left (in fifths of a dot): 3c dots on NTSC, 16/5 c
with fractional accumulation on PAL (60_exceptions.md R331; log 17). -/
def dotsOf (r : Region) (budget c : Nat) : Nat × Nat :=
  match r with
  | .ntsc => (3 * c, budget)
  | .pal => ((budget + 16 * c) / 5, (budget + 16 * c) % 5)

/-- `AdvancePPU(c)` for the step's own count (60_exceptions.md R330, R331). -/
def State.advancePpu (s : State) : State :=
  let d := dotsOf s.launch.region s.dotBudget s.stepCycles
  State.runDots d.1 { s with dotBudget := d.2 }

/-! ### The step -/

/-- What follows an executed instruction: OAMDMA, then the PPU dots. A JAM step returns no cycle count to the
synchronizer, which makes no further move (46_unofficial.md R277; 60_exceptions.md R330). -/
def State.finishStep (s : State) : State := if s.jammed then s else s.oamDma.advancePpu

/-- Fetch, decode and execute one instruction, and what follows it. -/
def runInstruction (s : State) : Result :=
  match exec s.fetchInstr.1 s.fetchInstr.2 with
  | .next t => .next t.finishStep
  | .fault f => .fault f
  | .refused r => .refused r

/-- How a marked state answers: it has no further step (40_execution_cycle.md R123). -/
def Mark.outcome : Mark → Result
  | .refusedUnstable op => .refused (.unstable op)
  | .unsupportedOpcode op => .fault (.unsupportedOpcode op)

/-- The step of a state at whose boundary everything has arrived (40_execution_cycle.md R120, R122; the
order of 60_exceptions.md R303). -/
def turn (s : State) : Result :=
  if s.resetPending then runInstruction s.resetSequence
  else if s.jammed then .fault .jammed
  else if 0 < s.stall then .next s.stallStep.advancePpu
  else runInstruction s.serviceInterrupt

/-- One turn of the synchronizer's loop (60_exceptions.md R330): a marked state has no step
(40_execution_cycle.md R123), a quit ends the run (60_exceptions.md R333), and otherwise the core steps and
the PPU follows. -/
def machineStep (s : State) : Result :=
  match s.mark with
  | some m => m.outcome
  | none => if s.quits then .fault .quit else turn s.beginStep

/-- The mark a stopped step leaves on the state it stopped in (00_scope.md R11; 40_execution_cycle.md R123):
a refused unstable opcode and an unsupported opcode mark it for the rest of the run; a jam, a break and a
quit do not. -/
def State.markedBy (s : State) : Result → State
  | .refused (.unstable op) => { s with mark := some (.refusedUnstable op) }
  | .fault (.unsupportedOpcode op) => { s with mark := some (.unsupportedOpcode op) }
  | .refused _ => s
  | .fault .jammed | .fault (.breakEncountered _) | .fault .quit => s
  | .next t => t

/-! ### Placing an instruction where the next step fetches it -/

/-- List a byte of plain memory: internal RAM, or a cartridge byte the platform fixes. A device address takes
none. -/
def State.place (s : State) (a : Word) (v : Byte) : State :=
  match locate a with
  | .ram i => { s with bus := s.bus.setRam i v }
  | .cart c => { s with bus := { s.bus with mem := s.bus.mem.set c.toNat v } }
  | .ppu _ | .apuChannel | .oamDma | .apuStatus | .pad1 | .pad2 | .testMode => s

/-- List bytes from an address on. -/
def State.placeBytes : List Byte → Word → State → State
  | [], _, s => s
  | v :: vs, a, s => State.placeBytes vs (a + 1) (s.place a v)

/-- An address where a byte can be placed. -/
def placeable (a : Word) : Bool :=
  match locate a with
  | .ram _ | .cart _ => true
  | .ppu _ | .apuChannel | .oamDma | .apuStatus | .pad1 | .pad2 | .testMode => false

/-- The vector through which the next step finds its first instruction, if it enters an interrupt or a reset
(60_exceptions.md R303). -/
def State.entryVector (s : State) : Option Word :=
  if s.resetPending then some resetVector
  else if s.nmiLatch then some nmiVector
  else if s.irqLine && !s.p.i then some irqVector
  else none

/-- Where placed code goes when the place is free to choose: the first mapper-register address, cartridge
space. -/
def codeBase : Word := 0x8000

/-- The state with an instruction's bytes where the next step fetches them: at PC, or at the target of the
vector the next step enters through, the vector then being placed too. What would keep the next step from
fetching is cleared: a mark, a jam, a stall, and events at the coming boundary (log 26). -/
def State.withFetchBytes (s : State) (code : List Byte) : State :=
  let t : State :=
    { s with mark := none, jammed := false, stall := 0,
             inputs := match s.inputs with
               | [] => []
               | _ :: rest => [] :: rest }
  match t.entryVector with
  | some vec => State.placeBytes code codeBase (State.placeBytes [loByte codeBase, hiByte codeBase] vec t)
  | none =>
    if placeable t.pc && placeable (t.pc + 1) && placeable (t.pc + 2) then State.placeBytes code t.pc t
    else State.placeBytes code codeBase { t with pc := codeBase }

end Sys2Proof.Machine
end

