-- ==== Sys2Proof/Machine/Step.lean ====
section
/-! DEFINITION. The step of the machine: one turn of the synchronizer's loop (60_exceptions.md R330), and an
instruction placed where the next step fetches it. -/
namespace Sys2Proof.Machine

/-- One step. -/
def step (s : State) : Host.Outcome State Fault Refusal := machineStep s

/-- The state with the instruction of the opcode table's number `w` of `nbits` bits where the next step
fetches it. From State.reset the next step is the reset sequence and then this instruction (log 3, log 26). -/
def State.withFetchWord (s : State) (nbits w : Nat) : State := s.withFetchBytes (tableBytes nbits w)

end Sys2Proof.Machine
end

