-- ==== Sys2Proof/Safety.lean ====
section
/-! DEFINITION. What claims about runs are stated in: the final states of a run (70_reset_and_hazards.md R363),
the invariant of the machine, and a frame of the synchronizer (60_exceptions.md R330). -/
namespace Sys2Proof.Machine

/-- No interrupt that the next step would take, no reset, stall, jam or mark (70_reset_and_hazards.md R363). -/
def State.quiet (s : State) : Bool :=
  !s.resetPending && decide (s.stall = 0) && !s.jammed && decide (s.mark = none) && !s.nmiLatch
    && !(s.irqLine && !s.p.i)

/-- The step boundary is one at which the run ends by R363 (a) (70_reset_and_hazards.md): PC is the launch
parameter `stop_pc`, in a quiet state. It is judged when what arrives at the boundary has arrived, and it does
not end the run so when `quit` arrives there too: both DESIGN CHOICE (log 31; R363: a state in which the run is
ended by `quit` is never final). -/
def State.isFinal (s : State) : Bool :=
  decide (s.launch.stopPc = some s.pc) && s.beginStep.quiet && !s.quits

/-- The state in which the step fetches its instruction: after a reset, an interrupt entry, or nothing
(40_execution_cycle.md R120). -/
def State.beforeInstr (s : State) : State :=
  if s.beginStep.resetPending then s.beginStep.resetSequence else s.beginStep.serviceInterrupt

/-- The final state of a run that ends with this step boundary or this step (70_reset_and_hazards.md R363): by
(a) the state at the boundary; by (b), a step that ends with `stop BreakEncountered`, the state before the
BRK. A marked, jammed or quit state gives none. -/
def State.finalState (s : State) : Option State :=
  if s.isFinal then some s.beginStep
  else match step s with
    | .fault (.breakEncountered _) => some s.beforeInstr
    | .next _ | .fault .jammed | .fault (.unsupportedOpcode _) | .fault .quit | .refused _ => none

/-- The final state of the run from a state (70_reset_and_hazards.md R363), with fuel: none when the run does
not end in a final state within it. -/
def runToEnd : Nat → State → Option State
  | 0, _ => none
  | n + 1, s =>
    match s.finalState with
    | some f => some f
    | none =>
      match step s with
      | .next t => runToEnd n t
      | .fault _ | .refused _ => none

/-- A key of bus memory: internal RAM or cartridge space (20_memory.md R51). -/
def memKey (k : Nat) : Bool := decide (k < 0x800) || (decide (0x4020 ≤ k) && decide (k < 0x10000))

/-- The bus is in order: memory and OAM are canonical and hold only keys that exist; the PPU position is a
position of the frame (60_exceptions.md R326). -/
structure Bus.Inv (b : Bus) : Prop where
  memCanonical : b.mem.wf
  memKeys : ∀ c ∈ b.mem, memKey c.1 = true
  oamCanonical : b.ppu.oam.wf
  oamKeys : ∀ c ∈ b.ppu.oam, c.1 < 256
  line : b.ppu.line < 262
  dot : b.ppu.dot < 341

/-- The invariant of the machine: the bus is in order, U is 1 (10_state.md R32), the PAL budget is less than a
dot (60_exceptions.md R331), and no stall is longer than an OAMDMA's (40_execution_cycle.md R135, R137). -/
structure State.Inv (s : State) : Prop where
  bus : s.bus.Inv
  unused : s.p.u = true
  budget : s.dotBudget < 5
  stall : s.stall ≤ 514

/-- The frame-done signal of a step (60_exceptions.md R330): the PPU has completed a frame in its dots. A reset
sets the count of frames to 0, which completes none. -/
def frameDone (s t : State) : Bool := t.bus.ppu.frame == s.bus.ppu.frame + 1

/-- `step_frame()` (60_exceptions.md R330), with fuel: steps until the PPU completes a frame; a step that halts,
refuses or faults is its last move. None when the fuel runs out first. -/
def stepFrame : Nat → State → Option Result
  | 0, _ => none
  | n + 1, s =>
    match step s with
    | .next t => if frameDone s t then some (.next t) else stepFrame n t
    | .fault f => some (.fault f)
    | .refused r => some (.refused r)

/-! ### The vocabulary of the claims about instructions -/

/-- The state moved past an instruction, with `c` cycles counted: what every instruction does that does not
transfer control (10_state.md R25; 40_execution_cycle.md R120). -/
def State.after (s : State) (i : Instr) (c : Nat) : State :=
  { s with pc := s.pc + BitVec.ofNat 16 i.length, cycleCount := s.cycleCount + c,
           stepCycles := s.stepCycles + c }

/-- The base cycles of the read-kind instructions and NOPs in each mode (70_reset_and_hazards.md R361). -/
def readCycles : Mode → Nat
  | .implied | .accumulator | .immediate => 2
  | .zeroPage => 3
  | .zeroPageX | .zeroPageY | .absolute | .absoluteX | .absoluteY => 4
  | .indirectY => 5
  | .indirectX => 6
  | .indirect | .relative => 0

/-- The cycles of the write-kind instructions in each mode (70_reset_and_hazards.md R361). -/
def writeCycles : Mode → Nat
  | .zeroPage => 3
  | .zeroPageX | .zeroPageY | .absolute => 4
  | .absoluteX | .absoluteY => 5
  | .indirectX | .indirectY => 6
  | .implied | .accumulator | .immediate | .indirect | .relative => 0

/-- The cycles of the RMW instructions in each mode (46_unofficial.md R260; 70_reset_and_hazards.md R361). -/
def rmwCycles : Mode → Nat
  | .accumulator => 2
  | .zeroPage => 5
  | .zeroPageX | .absolute => 6
  | .absoluteX | .absoluteY => 7
  | .indirectX | .indirectY => 8
  | .implied | .immediate | .zeroPageY | .indirect | .relative => 0

end Sys2Proof.Machine

namespace Sys2Proof

open Machine

/-- The cycles of a read-kind instruction: its base, and one more when the mode crosses a page
(40_execution_cycle.md R132). -/
def Instr.readTime (i : Instr) (s : State) : Nat :=
  readCycles i.operand.mode + if i.operand.crossed s then 1 else 0

end Sys2Proof

namespace Sys2Proof.Machine

/-- Every byte of plain memory reads as before. -/
def SameMemory (s t : State) : Prop := ∀ a : Word, t.peek a = s.peek a

/-- The byte in view at an address of cartridge space after a CPU write of `v` at `w` there (20_memory.md R56,
R58; log 5): PRG RAM takes `v` at `w`, the rule the write meets puts its bytes in view, and every other byte
is the one in view before. -/
def Bus.viewAfter (b : Bus) (w : Word) (v : Byte) (a : Word) : Option Byte :=
  let stored := if b.cart.isRam w ∧ a = w then some v else b.peek a
  match b.cart.ruleFor b.cartState w v with
  | some r => shownAt a stored r.answer.shows
  | none => stored

/-- A store of `v` at `w` from `s` to `t`. In internal RAM: the byte there reads `v`, every other byte of plain
memory as before (20_memory.md R52). At a device: every byte of plain memory reads as before. In cartridge
space: every byte of internal RAM reads as before, and every byte of the cartridge as the platform shows it
(R56, R58), which is as before but for PRG RAM at `w` and what a register written puts in view (log 5). -/
structure Stored (w : Word) (v : Byte) (s t : State) : Prop where
  written : w.toNat < 0x2000 → t.peek w = some v
  frame : w.toNat < 0x2000 → ∀ a : Word, locate a ≠ locate w → t.peek a = s.peek a
  device : 0x2000 ≤ w.toNat → w.toNat < 0x4020 → SameMemory s t
  ram : 0x4020 ≤ w.toNat → ∀ a : Word, a.toNat < 0x4020 → t.peek a = s.peek a
  platform : 0x4020 ≤ w.toNat → ∀ a : Word, 0x4020 ≤ a.toNat → t.peek a = s.bus.viewAfter w v a

/-- The bus after three stack writes from stack pointer `sp` down (60_exceptions.md R305). -/
def Bus.pushThree (b : Bus) (sp v1 v2 v3 : Byte) : Bus :=
  ((b.write (stackAddr sp) v1).write (stackAddr (sp - 1)) v2).write (stackAddr (sp - 2)) v3

/-- The state after the entry of an interrupt with return address `ret`, pushed status byte `st` and vector
`vec` (60_exceptions.md R305): three writes to page $01, then the two vector reads, low byte first. -/
def State.entered (s : State) (ret : Word) (st : Byte) (vec : Word) : State :=
  let lo := (s.bus.pushThree s.sp (hiByte ret) (loByte ret) st).read vec
  let hi := lo.2.read (vec + 1)
  { s with sp := s.sp - 3, p := { s.p with i := true }, pc := mkWord hi.1 lo.1, bus := hi.2,
           cycleCount := s.cycleCount + 7, stepCycles := s.stepCycles + 7 }

/-- Every byte of plain memory outside the three stack bytes below `sp` reads as before. -/
def SameMemoryButThreePushes (sp : Byte) (s t : State) : Prop :=
  ∀ a : Word, locate a ≠ locate (stackAddr sp) → locate a ≠ locate (stackAddr (sp - 1)) →
    locate a ≠ locate (stackAddr (sp - 2)) → t.peek a = s.peek a

/-- The state after a branch (45_control_transfer.md R230). -/
def State.branched (s : State) (taken : Bool) (off : Byte) : State :=
  let next := s.pc + 2
  let target := next + off.signExtend 16
  let c := if taken then (if hiByte target = hiByte next then 3 else 4) else 2
  { s with pc := if taken then target else next, cycleCount := s.cycleCount + c,
           stepCycles := s.stepCycles + c }

/-- The state after `n` reads of one address. -/
def Bus.readTimes (w : Word) : Nat → Bus → Bus
  | 0, b => b
  | n + 1, b => Bus.readTimes w n (b.read w).2

/-- The position in the frame, in dots (60_exceptions.md R326). -/
def Ppu.position (p : Ppu) : Nat := p.line * 341 + p.dot

/-- The outcome with the decimal flag of a next state replaced. -/
def withDecimal (d : Bool) : Result → Result
  | .next t => .next { t with p := { t.p with d := d } }
  | .fault f => .fault f
  | .refused r => .refused r

/-- The two's complement value of a byte, -128 to 127 (00_scope.md R8). -/
def signed (v : Byte) : Int := v.toInt

end Sys2Proof.Machine
end

