-- ==== Sys2Proof/Certificates/Slice0/Obligations.lean ====
section
/-! DEFINITION. The statements about the machine. Each docstring names the rules it formalises; what is the
model's own choice says so and names its log entry. -/
open Sys2Proof Sys2Proof.Machine

/-! ### Encoding -/

/-- R80, R81, R102: decoding the bytes of a well-formed instruction gives the instruction back, whatever
follows it. -/
def Obligations.EncodeThenDecodeRoundTrips : Prop :=
  ∀ (i : Instr) (rest : List Byte), i.wellFormed = true →
    decode (encode i ++ rest) = .ok (i, rest)

/-- R103: no opcode value is reserved. Every three bytes begin with an instruction; it is well formed, and its
own bytes are those it was read from, so no bit of them is dropped. -/
def Obligations.EveryByteSequenceDecodesExactly : Prop :=
  (∀ op b1 b2 : Byte, ∃ i rest, decode [op, b1, b2] = .ok (i, rest)) ∧
  ∀ (bs : List Byte) (i : Instr) (rest : List Byte), decode bs = .ok (i, rest) →
    i.wellFormed = true ∧ encode i ++ rest = bs

/-- R102: words written out from the opcode map decode to the instructions they stand for. That BRK is one byte to
the decoder, its signature byte left over, is the model's choice (log 23, DEDUCED; R80 and R245 give BRK 2
bytes). -/
def Obligations.HandEncodedWordsDecode : Prop :=
  decode [0xA9, 0x80] = .ok (.ldaImm 0x80, []) ∧
  decode [0x96, 0xF8] = .ok (.stxZpy 0xF8, []) ∧
  decode [0x7D, 0xFF, 0x02] = .ok (.adcAbsx 0x02FF, []) ∧
  decode [0x1E, 0x00, 0x03] = .ok (.aslAbsx 0x0300, []) ∧
  decode [0x28] = .ok (.plp, []) ∧
  decode [0x6C, 0xFF, 0x02] = .ok (.jmpInd 0x02FF, []) ∧
  decode [0xD0, 0xF9] = .ok (.bne 0xF9, []) ∧
  decode [0x00, 0xEA] = .ok (.brk, [0xEA]) ∧
  decode [0xF3, 0x20] = .ok (.iscIzy 0x20, []) ∧
  decode [0x92] = .ok (.jam 0x92, []) ∧
  decode [0x9C, 0x00, 0x02] = .ok (.shy 0x0200, [])

/-! ### The machine -/

/-- R32, R135, R137, R326, R331 and the model's memory form: every step keeps the invariant: memory and OAM stay
canonical and within the keys that exist, U stays 1, the PPU position stays in the frame, the PAL budget
stays under a dot, a stall is at most 514. It holds from every state that meets it. -/
def Obligations.StepKeepsMachineInvariant : Prop :=
  ∀ s t : State, s.Inv → step s = .next t → t.Inv

/-- R352, R331: the launch state meets the invariant. That U is 1 there, where R352 allows any P, and that the PPU
is at a position of the frame, which R352 does not give, are the model's choices (log 3, log 9). -/
def Obligations.LaunchStateMeetsInvariant : Prop := State.reset.Inv

/-- R334 ("change a parameter later (no move)"), R7: no step changes a launch parameter, the supplied cartridge
(the model's form of PlatformBus, log 5) among them. -/
def Obligations.StepKeepsLaunchParameters : Prop :=
  ∀ s t : State, step s = .next t → t.launch = s.launch ∧ t.bus.cart = s.bus.cart

/-- R120, R127, R128: when the boundary leaves the core free to run (no mark, quit, reset, jam, stall or
interrupt) and the bytes of plain memory at PC decode to an instruction, the step is that instruction's
execution from the state at the boundary, and then what the machine adds: the OAMDMA of a $4014 write and
the PPU dots (State.finishStep). -/
def Obligations.StepRunsDecodedInstruction : Prop :=
  ∀ (s : State) (bs : List Byte) (i : Instr),
    s.mark = none → s.quits = false → s.beginStep.resetPending = false → s.beginStep.jammed = false →
    s.beginStep.stall = 0 → s.beginStep.nmiLatch = false →
    (s.beginStep.irqLine = false ∨ s.beginStep.p.i = true) →
    decode bs = .ok (i, []) →
    (∀ (k : Nat) (h : k < bs.length),
      s.beginStep.peek (s.beginStep.pc + BitVec.ofNat 16 k) = some bs[k]) →
    step s =
      match exec i s.beginStep with
      | .next t => .next t.finishStep
      | .fault f => .fault f
      | .refused r => .refused r

/-- R303, R310, R122: at the start of a step a pending reset comes before a jam, a jam before a stall, a stall
before an interrupt, NMI before IRQ, and an IRQ is taken only while I = 0. -/
def Obligations.StepTakesEventsInPriorityOrder : Prop :=
  ∀ s : State, s.mark = none → s.quits = false →
    (s.beginStep.resetPending = true → step s = runInstruction s.beginStep.resetSequence) ∧
    (s.beginStep.resetPending = false → s.beginStep.jammed = true → step s = .fault .jammed) ∧
    (s.beginStep.resetPending = false → s.beginStep.jammed = false → 0 < s.beginStep.stall →
      step s = .next s.beginStep.stallStep.advancePpu) ∧
    (s.beginStep.resetPending = false → s.beginStep.jammed = false → s.beginStep.stall = 0 →
      (s.beginStep.nmiLatch = true → step s = runInstruction s.beginStep.enterNmi) ∧
      (s.beginStep.nmiLatch = false → s.beginStep.irqLine = true → s.beginStep.p.i = false →
        step s = runInstruction s.beginStep.enterIrq) ∧
      (s.beginStep.nmiLatch = false → (s.beginStep.irqLine = false ∨ s.beginStep.p.i = true) →
        step s = runInstruction s.beginStep))

/-- R351: the host's user reset between two steps makes the next step perform the reset sequence before
anything else, even when the core is jammed or stalled; a second request before it changes nothing. -/
def Obligations.UserResetRunsResetSequence : Prop :=
  ∀ (s : State) (n : Nat) (rest : List (List HostEvent)),
    s.mark = none → s.inputs = List.replicate (n + 1) .userReset :: rest →
    step s = runInstruction
      (State.resetSequence { s with inputs := rest, resetPending := true, stepCycles := 0,
                                    bus := { s.bus with dmaPage := none } })

/-- R350, R40: what the reset sequence leaves: the registers and latches, PC from the vector (read after the
console's reset of the devices, which is the model's choice, log 25), 7 cycles; internal RAM and the launch
parameters as before, and all of memory when the supplied cartridge answers no reset. -/
def Obligations.ResetSequenceSetsRegisters : Prop :=
  ∀ s : State,
    let t := s.resetSequence
    let lo := s.bus.consoleReset.read 0xFFFC
    t.a = 0x00 ∧ t.x = 0x00 ∧ t.y = 0x00 ∧ t.sp = 0xFD ∧ t.p.toByte = 0x24 ∧
    t.pc = mkWord (lo.2.read 0xFFFD).1 lo.1 ∧
    t.nmiLatch = false ∧ t.stall = 0 ∧ t.jammed = false ∧ t.resetPending = false ∧
    t.cycleCount = s.cycleCount + 7 ∧ t.irqLine = false ∧ t.dotBudget = s.dotBudget ∧
    t.mark = s.mark ∧ t.launch = s.launch ∧ t.bus.cart = s.bus.cart ∧
    (∀ a : Word, a.toNat < 0x4020 → t.peek a = s.peek a) ∧
    (∀ a : Word, t.peek a = s.bus.consoleReset.peek a) ∧
    (s.bus.cart.onReset = none → SameMemory s t)

/-- R123: a refused or faulted state has no further step, and no reset clears its mark. That a marked state
answers the outcome that marked it again is the model's choice (log 2). -/
def Obligations.MarkedStateHasNoStep : Prop :=
  ∀ (s : State) (op : Byte),
    step (s.markedBy (.refused (.unstable op))) = .refused (.unstable op) ∧
    step (s.markedBy (.fault (.unsupportedOpcode op))) = .fault (.unsupportedOpcode op) ∧
    (s.markedBy (.refused (.unstable op))).resetSequence.mark = some (.refusedUnstable op) ∧
    (s.markedBy (.fault (.unsupportedOpcode op))).resetSequence.mark = some (.unsupportedOpcode op)

/-- R136: a stall step counts the stall down by one cycle, performs no bus access, executes nothing and takes
no interrupt: its state is the one at the boundary with the stall one less and one cycle counted, and then the
PPU dots of one cycle. The registers, memory and OAM stay; a latched NMI stays latched. -/
def Obligations.StallStepOnlyCountsDown : Prop :=
  ∀ s : State, s.mark = none → s.quits = false → s.beginStep.resetPending = false →
    s.beginStep.jammed = false → 0 < s.beginStep.stall →
    let t := ({ s.beginStep with stall := s.beginStep.stall - 1, cycleCount := s.beginStep.cycleCount + 1,
                                 stepCycles := 1 } : State).advancePpu
    step s = .next t ∧
    t.stall = s.stall - 1 ∧ t.cycleCount = s.cycleCount + 1 ∧ t.stepCycles = 1 ∧
    t.a = s.a ∧ t.x = s.x ∧ t.y = s.y ∧ t.sp = s.sp ∧ t.pc = s.pc ∧ t.p = s.p ∧
    t.bus.mem = s.bus.mem ∧ t.bus.ppu.oam = s.bus.ppu.oam ∧
    t.bus.apu = s.beginStep.bus.apu ∧ t.bus.pads = s.beginStep.bus.pads ∧
    t.irqLine = s.beginStep.irqLine ∧
    (s.beginStep.nmiLatch = true → t.nmiLatch = true)

/-- R303, R305, R306: servicing an NMI clears the latch and is an interrupt entry that pushes PC and
`(P & ~0x10) | 0x20`, sets I and loads PC from $FFFA; nothing else changes. -/
def Obligations.NmiEntryPushesAndVectors : Prop :=
  ∀ s : State, s.nmiLatch = true →
    let st := (s.p.toByte &&& 0xEF) ||| 0x20
    s.serviceInterrupt = { s.entered s.pc st 0xFFFA with nmiLatch := false } ∧
    s.serviceInterrupt.peek (stackAddr s.sp) = some (hiByte s.pc) ∧
    s.serviceInterrupt.peek (stackAddr (s.sp - 1)) = some (loByte s.pc) ∧
    s.serviceInterrupt.peek (stackAddr (s.sp - 2)) = some st ∧
    SameMemoryButThreePushes s.sp s s.serviceInterrupt

/-- R303 to R306: with no NMI latched, an asserted IRQ is entered while I = 0, leaving its sources asserted,
and not while I = 1; without an event nothing changes. -/
def Obligations.IrqEntryHonoursMask : Prop :=
  ∀ s : State, s.nmiLatch = false →
    let st := (s.p.toByte &&& 0xEF) ||| 0x20
    (s.irqLine = true → s.p.i = false →
      s.serviceInterrupt = s.entered s.pc st 0xFFFE ∧
      s.serviceInterrupt.irqLine = true ∧
      s.serviceInterrupt.peek (stackAddr s.sp) = some (hiByte s.pc) ∧
      s.serviceInterrupt.peek (stackAddr (s.sp - 1)) = some (loByte s.pc) ∧
      s.serviceInterrupt.peek (stackAddr (s.sp - 2)) = some st ∧
      SameMemoryButThreePushes s.sp s s.serviceInterrupt) ∧
    (s.irqLine = false ∨ s.p.i = true → s.serviceInterrupt = s)

/-- R134, R135, R323, R325, R326, R359: a write of $4014 starts an OAMDMA of the page written and reaches no
device; it waits in a field of the model's own until the instruction has ended (log 24, DESIGN CHOICE), and without one there is
none. An OAMDMA, of any page and whether rendering or not, stalls the core for 513 cycles, 514 when the cycle
count is odd, and leaves the registers and memory. From a page of plain memory, with rendering off or in
vblank, it puts the page's 256 bytes into OAM from OAMADDR on (wrapping) and leaves OAMADDR as it was; while
rendering outside vblank OAM stays as it was. That rendering off is both show bits of PPUMASK clear (R323), and
vblank the lines 241 to 260 of R326 rather than the vblank flag, is the model's reading of R359 (log 14). -/
def Obligations.OamDmaCopiesPageAndStalls : Prop :=
  ∀ s : State,
    (∀ page : Byte, s.bus.write 0x4014 page = { s.bus with dmaPage := some page }) ∧
    (s.bus.dmaPage = none → s.oamDma = s) ∧
    ∀ page : Byte, s.bus.dmaPage = some page →
      (s.oamDma.stall = 513 + s.cycleCount % 2 ∧ s.oamDma.cycleCount = s.cycleCount ∧
        s.oamDma.a = s.a ∧ s.oamDma.x = s.x ∧ s.oamDma.y = s.y ∧ s.oamDma.sp = s.sp ∧
        s.oamDma.pc = s.pc ∧ s.oamDma.p = s.p ∧ SameMemory s s.oamDma) ∧
      (s.bus.ppu.rendering = false ∨ (241 ≤ s.bus.ppu.line ∧ s.bus.ppu.line ≤ 260) →
        ∀ data : Byte → Byte, (∀ i : Byte, s.peek (mkWord page i) = some (data i)) →
          (∀ i : Byte, s.oamDma.bus.ppu.oam.lookup (s.bus.ppu.oamAddr + i).toNat = some (data i)) ∧
          s.oamDma.bus.ppu.oamAddr = s.bus.ppu.oamAddr) ∧
      (s.bus.ppu.rendering = true → ¬ (241 ≤ s.bus.ppu.line ∧ s.bus.ppu.line ≤ 260) →
        s.oamDma.bus.ppu.oam = s.bus.ppu.oam)

/-- R363, R333, R122, R123: when a run ends in a final state. (a) The boundary is final exactly when PC is the
launch's `stop_pc` and nothing is pending that the next step would take, no stall, jam or mark holds, and `quit`
does not arrive there; that the boundary's events count as pending and that `quit` comes first are the model's
choices (log 31). (b) A step that reaches a BRK under `debugBreak` ends the run, the final state being the one
before the BRK. A marked, quit or jammed state is never final. A run goes on while neither holds. -/
def Obligations.FinalStatesEndRuns : Prop :=
  ∀ s : State,
    (s.isFinal = true ↔ s.launch.stopPc = some s.pc ∧ s.beginStep.resetPending = false ∧ s.stall = 0 ∧
      s.jammed = false ∧ s.mark = none ∧ s.nmiLatch = false ∧
      (s.beginStep.irqLine = false ∨ s.p.i = true) ∧ s.quits = false) ∧
    (s.isFinal = true → s.finalState = some s.beginStep) ∧
    (s.launch.debugBreak = true → s.mark = none → s.quits = false → s.beginStep.resetPending = false →
      s.jammed = false → s.stall = 0 → s.nmiLatch = false → (s.beginStep.irqLine = false ∨ s.p.i = true) →
      s.peek s.pc = some 0x00 →
      step s = .fault (.breakEncountered s.pc) ∧ s.finalState = some s.beginStep) ∧
    (s.mark ≠ none ∨ s.quits = true ∨ (s.jammed = true ∧ s.beginStep.resetPending = false) →
      s.finalState = none) ∧
    ∀ (n : Nat) (t : State),
      (∀ f : State, s.finalState = some f → runToEnd (n + 1) s = some f) ∧
      (s.finalState = none → step s = .next t → runToEnd (n + 1) s = runToEnd n t)

/-! ### The bus -/

/-- R52, R53: an access of an address a in $0000 to $1FFF accesses the RAM byte `a & 0x07FF`, so that addresses
congruent modulo $0800 name one byte, written or not; a read has no side effect and returns the byte last
written. An address a in $2000 to $3FFF accesses PPU register `a & 7`. -/
def Obligations.MirrorsNameOneLocation : Prop :=
  (∀ (b : Bus) (w r : Word) (v : Byte), w.toNat < 0x2000 → r.toNat < 0x2000 →
    (b.read r).2 = b ∧
    (r.toNat % 0x800 = w.toNat % 0x800 → (b.read r).1 = (b.read w).1 ∧ b.write r v = b.write w v) ∧
    ((b.write w v).read r).1 = if r.toNat % 0x800 = w.toNat % 0x800 then v else (b.read r).1) ∧
  ∀ (b : Bus) (w : Word) (v : Byte), 0x2000 ≤ w.toNat → w.toNat < 0x4000 →
    b.read w = b.read (BitVec.ofNat 16 (0x2000 + w.toNat % 8)) ∧
    b.write w v = b.write (BitVec.ofNat 16 (0x2000 + w.toNat % 8)) v

/-- R62: a read leaves every byte of plain memory as it was, and a read of plain memory (RAM, or a cartridge
byte the platform fixes) returns the byte and has no side effect at all. -/
def Obligations.BusReadsLeaveMemory : Prop :=
  ∀ (b : Bus) (w : Word),
    (∀ a : Word, (b.read w).2.peek a = b.peek a) ∧
    ∀ v : Byte, b.peek w = some v → b.read w = (v, b)

/-- R52, R56, R58: a write to internal RAM is read back there and changes no other byte of plain memory; a write
at a device changes none; a write to cartridge space changes none of internal RAM, and of the cartridge's bytes
those that the supplied platform changes. The form of the supplied platform is the model's choice (log 5). -/
def Obligations.BusWritesChangeOneByte : Prop :=
  ∀ (s : State) (w : Word) (v : Byte), Stored w v s (s.write w v)

/-- R56, R58, R7, R63: the cartridge is PlatformBus, a state machine that the launch supplies, in the form of log 5
(the model's choice). A write at an address of PRG RAM that meets no register is read back, with no side
effect; a write that meets a register moves the machine's state, puts the bytes of the rule in view and drives
the IRQ output as the rule says; a write that meets none leaves the machine's state and never raises the IRQ
output, which is the model's choice too (log 19, DESIGN CHOICE). What the launch does not fix is an arbitrary
platform's: a read of an address without a fixed byte is answered from everything that has
reached the cartridge, this read included, and every write reaches it. -/
def Obligations.CartridgeAnswersAsSupplied : Prop :=
  ∀ (b : Bus) (w : Word) (v : Byte), 0x4020 ≤ w.toNat →
    (b.cart.isRam w = true → b.cart.ruleFor b.cartState w v = none →
      (b.write w v).read w = (v, b.write w v)) ∧
    (∀ r : CartRule, b.cart.ruleFor b.cartState w v = some r →
      r ∈ b.cart.rules ∧ r.state = b.cartState ∧ r.addr.selects w = true ∧ v &&& r.mask = r.value ∧
      (b.write w v).cartState = r.answer.state ∧
      (b.write w v).mapperIrq = r.answer.irq.getD b.mapperIrq ∧
      ∀ (a : Word) (u : Byte) (before : List (Word × Option Byte)), 0x4020 ≤ a.toNat →
        r.answer.shows = before ++ [(a, some u)] → (b.write w v).read a = (u, b.write w v)) ∧
    (b.cart.ruleFor b.cartState w v = none →
      (b.write w v).cartState = b.cartState ∧ ((b.write w v).mapperIrq = true → b.mapperIrq = true)) ∧
    (b.write w v).cartLog = .write w v :: b.cartLog ∧
    (b.peek w = none → b.read w =
      (Config.cartByte (.read w :: b.cartLog) w, { b with cartLog := .read w :: b.cartLog }))

/-- R324, R62: a $2002 read returns vblank (suppressed on the dot that would set it), sprite-0 hit and
sprite overflow in bits 7 to 5 over the data-bus latch's low bits, clears vblank and the write latch `w`,
and leaves `v`, `t` and the fine X as they were. Which read is on that dot is the model's choice (log 15,
DEDUCED): one made when the last dot stepped is dot 1 of line 241. What the read does to the NMI output is free
(log 11). -/
def Obligations.StatusReadClearsVblankAndLatch : Prop :=
  ∀ b : Bus,
    let r := b.read 0x2002
    (r.1.getLsbD 7 = true ↔
      b.ppu.vblank = true ∧ ¬ (b.ppu.line = 241 ∧ b.ppu.dot = 1)) ∧
    r.1.getLsbD 6 = b.ppu.sprite0Hit ∧ r.1.getLsbD 5 = b.ppu.spriteOverflow ∧
    (∀ k, k < 5 → r.1.getLsbD k = b.ppu.latch.getLsbD k) ∧
    r.2.ppu.vblank = false ∧ r.2.ppu.w = false ∧ r.2.ppu.v = b.ppu.v ∧ r.2.ppu.t = b.ppu.t ∧
    r.2.ppu.fineX = b.ppu.fineX ∧ r.2.mem = b.mem

/-- R321, R325: from a clear write latch, two PPUSCROLL writes put coarse and fine X, then coarse and fine Y
into `t` and `x`, and two PPUADDR writes put the address into `t` and then `v`. The positions of the fields
in `t` are the family's (log 9), and that the PPU has no warm-up is the model's choice (log 30). -/
def Obligations.ScrollAndAddressWritesFillLatches : Prop :=
  ∀ (b : Bus) (v1 v2 : Byte), b.ppu.w = false →
    (let c := (b.write 0x2005 v1).ppu
     c.t.extractLsb' 0 5 = v1.extractLsb' 3 5 ∧ c.fineX = v1.extractLsb' 0 3 ∧ c.v = b.ppu.v ∧
     c.w = true) ∧
    (let c := ((b.write 0x2005 v1).write 0x2005 v2).ppu
     c.t.extractLsb' 0 5 = v1.extractLsb' 3 5 ∧ c.t.extractLsb' 5 5 = v2.extractLsb' 3 5 ∧
     c.t.extractLsb' 12 3 = v2.extractLsb' 0 3 ∧ c.t.extractLsb' 10 2 = b.ppu.t.extractLsb' 10 2 ∧
     c.v = b.ppu.v ∧ c.w = false) ∧
    (let c := ((b.write 0x2006 v1).write 0x2006 v2).ppu
     c.v = c.t ∧ c.t.extractLsb' 0 8 = v2 ∧ c.t.extractLsb' 8 6 = v1.extractLsb' 0 6 ∧ c.w = false)

/-- R64, R320: a read of a write-only PPU port returns the PPU's data-bus latch, the byte of the last access;
it changes nothing but the draw count of the model. That the latch takes the whole byte of every port write,
and that such a read leaves it, is the model's choice (log 10, DEDUCED). -/
def Obligations.WriteOnlyPortsReadTheLatch : Prop :=
  ∀ (b : Bus) (port : Word) (v : Byte),
    port ∈ [(0x2000 : Word), 0x2001, 0x2003, 0x2005, 0x2006] →
    b.read port = (b.ppu.latch, { b with draws := b.draws + 1 }) ∧
    ∀ w : Word, 0x2000 ≤ w.toNat → w.toNat < 0x4000 → ((b.write w v).read port).1 = v

/-- R321, R322, R323, R325, R326, R359: the other PPU ports. A PPUCTRL write sets PPUCTRL and bits 10 and 11 of `t` only;
it leaves the NMI output when bit 7 stays, or outside vblank with the output low. A PPUMASK write sets PPUMASK,
an OAMADDR write OAMADDR, and a PPUSTATUS write nothing. An OAMDATA write with rendering off or in vblank puts
the byte at OAMADDR, which then increments; while rendering outside vblank it changes no byte of OAM. An OAMDATA
read returns the byte at OAMADDR. A PPUDATA read below the palette returns the read buffer; read and write move
`v` by 1, or by 32 when PPUCTRL bit 2 is set, unless the PPU renders on a visible or pre-render line. The model's
choices in it are the positions in `t` (log 9), that the latch takes the byte (log 10), when a PPUCTRL write leaves
the NMI output (log 11), where the palette begins, that a PPUDATA write has no other effect here and on which lines
an access moves `v` by this step (log 12), that vblank is the lines 241 to 260 for an OAMDATA write and that an
OAMDATA read leaves OAMADDR (log 14), and that the PPU has no warm-up (log 30). -/
def Obligations.PpuPortsActOnTheirRegisters : Prop :=
  ∀ (b : Bus) (v : Byte),
    let p := b.ppu
    let vblankLine := 241 ≤ p.line ∧ p.line ≤ 260
    let step : BitVec 15 := if p.ctrl.getLsbD 2 then 32 else 1
    (let q := (b.write 0x2000 v).ppu
     q.ctrl = v ∧ q.t.extractLsb' 10 2 = v.extractLsb' 0 2 ∧ q.t.extractLsb' 0 10 = p.t.extractLsb' 0 10 ∧
     q.t.extractLsb' 12 3 = p.t.extractLsb' 12 3 ∧ q.v = p.v ∧ q.w = p.w ∧ q.fineX = p.fineX ∧
     q.vblank = p.vblank ∧
     (v.getLsbD 7 = p.ctrl.getLsbD 7 ∨ (p.vblank = false ∧ p.nmiOut = false) → q.nmiOut = p.nmiOut)) ∧
    (b.write 0x2001 v).ppu = { p with mask := v, latch := v } ∧
    (b.write 0x2002 v).ppu = { p with latch := v } ∧
    (b.write 0x2003 v).ppu = { p with oamAddr := v, latch := v } ∧
    (p.rendering = false ∨ vblankLine → (b.write 0x2004 v).ppu =
      { p with oam := p.oam.set p.oamAddr.toNat v, oamAddr := p.oamAddr + 1, latch := v }) ∧
    (p.rendering = true → ¬ vblankLine → (b.write 0x2004 v).ppu.oam = p.oam) ∧
    (p.oam.lookup p.oamAddr.toNat = some v →
      (b.read 0x2004).1 = v ∧ (b.read 0x2004).2.ppu = { p with latch := v }) ∧
    ((p.v.setWidth 14).toNat < 0x3F00 → (b.read 0x2007).1 = p.readBuffer) ∧
    (p.rendering = false ∨ (240 ≤ p.line ∧ p.line ≤ 260) →
      (b.read 0x2007).2.ppu.v = p.v + step ∧ (b.write 0x2007 v).ppu = { p with v := p.v + step, latch := v })

/-- R62, R327: a $4015 read shows the frame interrupt in bit 6 and clears it, so that the IRQ line is then the
mapper's alone; a $4017 write with bit 6 set clears and inhibits it. The end of a frame sequence raises it,
and with it the IRQ line, in mode 0 and not inhibited, and otherwise leaves it. -/
def Obligations.FrameInterruptFollowsItsRules : Prop :=
  ∀ (s : State) (v : Byte),
    (s.read 0x4015).1.getLsbD 6 = s.bus.apu.frameIrq ∧
    (s.read 0x4015).2.irqLine = s.bus.mapperIrq ∧
    (v.getLsbD 6 = true → (s.write 0x4017 v).irqLine = s.bus.mapperIrq) ∧
    (v.getLsbD 6 = false → (s.write 0x4017 v).irqLine = s.irqLine) ∧
    (s.write 0x4017 v).bus.apu.sequenceEnd.frameIrq =
      ((s.bus.apu.frameIrq && !v.getLsbD 6) || (!v.getLsbD 7 && !v.getLsbD 6)) ∧
    ∀ rest : List (List HostEvent), s.inputs = [.apuSequenceEnd] :: rest →
      s.beginStep.irqLine = (s.irqLine || (!s.bus.apu.fiveStep && !s.bus.apu.irqInhibit))

/-- R328: after a strobe (a write of 1, then of 0, to $4016) the reads of $4016 return the eight buttons in
order under the upper bits $40, and $41 from the ninth on; so do those of $4017 for controller 2. -/
def Obligations.ControllerReadsShiftOutButtons : Prop :=
  ∀ (b : Bus) (one zero : Byte) (n : Nat), one.getLsbD 0 = true → zero.getLsbD 0 = false →
    let c := (b.write 0x4016 one).write 0x4016 zero
    ((Bus.readTimes 0x4016 n c).read 0x4016).1 =
      (if n < 8 then (if b.pads.buttons1.getLsbD n then 0x41 else 0x40) else 0x41) ∧
    ((Bus.readTimes 0x4017 n c).read 0x4017).1 =
      (if n < 8 then (if b.pads.buttons2.getLsbD n then 0x41 else 0x40) else 0x41)

/-- R302, R326: the dot that enters (241, 1) sets vblank, raises the NMI output if PPUCTRL bit 7 is set, and the
rise sets the NMI latch; with bit 7 clear the latch keeps its value, and so it does while the output merely
stays asserted. The dot that enters (261, 1), of the pre-render line, clears vblank and the NMI output and sets
no latch. Every other dot leaves vblank and the NMI output. -/
def Obligations.VblankDotsDriveNmi : Prop :=
  ∀ s : State,
    (s.bus.ppu.line = 241 → s.bus.ppu.dot = 0 → s.bus.ppu.nmiPrev = s.bus.ppu.nmiOut →
      s.stepDot.bus.ppu.vblank = true ∧
      (s.bus.ppu.ctrl.getLsbD 7 = true → s.stepDot.bus.ppu.nmiOut = true) ∧
      (s.bus.ppu.ctrl.getLsbD 7 = true → s.bus.ppu.nmiOut = false → s.stepDot.nmiLatch = true) ∧
      (s.bus.ppu.ctrl.getLsbD 7 = false → s.stepDot.nmiLatch = s.nmiLatch) ∧
      (s.bus.ppu.nmiOut = true → s.stepDot.nmiLatch = s.nmiLatch)) ∧
    (s.bus.ppu.line = 261 → s.bus.ppu.dot = 0 →
      s.stepDot.bus.ppu.vblank = false ∧ s.stepDot.bus.ppu.nmiOut = false ∧
      s.stepDot.nmiLatch = s.nmiLatch) ∧
    (¬ ((s.bus.ppu.line = 241 ∨ s.bus.ppu.line = 261) ∧ s.bus.ppu.dot = 0) →
      s.stepDot.bus.ppu.vblank = s.bus.ppu.vblank ∧ s.stepDot.bus.ppu.nmiOut = s.bus.ppu.nmiOut)

/-- R326, R330: with background rendering off, n dots move the position by n in a frame of 262 lines of 341 dots
and count the frames completed; with it on, in an odd frame, the dot after dot 338 of the pre-render line is dot
340. That the removed dot is the pre-render line's and that odd frames are those with an odd count of completed
frames is the model's choice (log 16, DEDUCED). step_frame takes steps until one completes a frame, and a step
that runs the reset sequence completes none: it leaves the PPU on line 0 with no frame counted, which is the model's
choice, that a reset of the console resets the PPU (log 25), to dot 0 of line 0 (log 9) and its count to 0
(log 16). -/
def Obligations.DotsFollowFrameGeometry : Prop :=
  (∀ (n : Nat) (s : State), s.bus.ppu.line < 262 → s.bus.ppu.dot < 341 →
    s.bus.ppu.mask.getLsbD 3 = false →
    (State.runDots n s).bus.ppu.position = (s.bus.ppu.position + n) % 89342 ∧
    (State.runDots n s).bus.ppu.frame = s.bus.ppu.frame + (s.bus.ppu.position + n) / 89342) ∧
  (∀ s : State, s.bus.ppu.line = 261 → s.bus.ppu.dot = 338 → s.bus.ppu.frame % 2 = 1 →
    s.bus.ppu.mask.getLsbD 3 = true →
    s.stepDot.bus.ppu.line = 261 ∧ s.stepDot.bus.ppu.dot = 340 ∧
    s.stepDot.bus.ppu.frame = s.bus.ppu.frame) ∧
  ∀ (n : Nat) (s t : State), step s = .next t →
    (stepFrame (n + 1) s =
      if t.bus.ppu.frame = s.bus.ppu.frame + 1 then some (.next t) else stepFrame n t) ∧
    (s.dotBudget < 5 → s.beginStep.resetPending = true →
      t.bus.ppu.frame = 0 ∧ t.bus.ppu.line = 0 ∧ stepFrame (n + 1) s = stepFrame n t)

/-- R330, R331: a step of c cycles advances the PPU by exactly 3c dots on NTSC; on PAL by 16/5 c dots with
fractional accumulation: the dots and the residual budget (in fifths, log 17) account for every cycle. -/
def Obligations.DotsPerCycleByRegion : Prop :=
  ∀ s : State,
    (s.launch.region = .ntsc → s.advancePpu = State.runDots (3 * s.stepCycles) s) ∧
    (s.launch.region = .pal → ∃ n budget : Nat, budget < 5 ∧
      5 * n + budget = s.dotBudget + 16 * s.stepCycles ∧
      s.advancePpu = State.runDots n { s with dotBudget := budget })

/-! ### Addressing modes -/

/-- R88 to R98, R87, R129: what the operand value M is (the operand byte of an immediate, without an access; A in
accumulator mode; one read of the effective address otherwise); the effective address of each mode from the
operand bytes, X, Y and the bytes MemRead returns for the pointer, with the zero-page wraps, the pointer reads
having no side effect; and the page cross, which exactly the three indexed modes of R87 can have. -/
def Obligations.AddressingModesFindTheirOperand : Prop :=
  (∀ (i : Instr) (s : State), i.operand.mode ∉ [.implied, .indirect, .relative] → i.operand.fetch s =
    match i.operand.mode with
    | .immediate => ((encode i).getD 1 0, s)
    | .accumulator => (s.a, s)
    | _ => s.read (i.operand.ea s)) ∧
  ∀ (s : State) (b : Byte) (a : Word),
    Operand.ea (.zp b) s = mkWord 0 b ∧
    Operand.ea (.zpx b) s = mkWord 0 (b + s.x) ∧
    Operand.ea (.zpy b) s = mkWord 0 (b + s.y) ∧
    Operand.ea (.abs a) s = a ∧
    (Operand.ea (.absx a) s).toNat = (a.toNat + s.x.toNat) % 65536 ∧
    (Operand.ea (.absy a) s).toNat = (a.toNat + s.y.toNat) % 65536 ∧
    (let lo := s.read (mkWord 0 (b + s.x))
     let hi := lo.2.read (mkWord 0 (b + s.x + 1))
     Operand.ea (.izx b) s = mkWord hi.1 lo.1 ∧ hi.2 = s) ∧
    (let lo := s.read (mkWord 0 b)
     let hi := lo.2.read (mkWord 0 (b + 1))
     (Operand.ea (.izy b) s).toNat = ((mkWord hi.1 lo.1).toNat + s.y.toNat) % 65536 ∧ hi.2 = s ∧
     (Operand.crossed (.izy b) s = true ↔
       (Operand.ea (.izy b) s).toNat / 256 ≠ (mkWord hi.1 lo.1).toNat / 256)) ∧
    (Operand.crossed (.absx a) s = true ↔ (Operand.ea (.absx a) s).toNat / 256 ≠ a.toNat / 256) ∧
    (Operand.crossed (.absy a) s = true ↔ (Operand.ea (.absy a) s).toNat / 256 ≠ a.toNat / 256) ∧
    ∀ o : Operand, o.mode ∉ [.absoluteX, .absoluteY, .indirectY] → o.crossed s = false

/-! ### Loads, stores, transfers -/

/-- R150 to R152, R266: LDA, LDX, LDY and LAX, in every mode they have, complete: they read M once, put it into
their registers, set N and Z from it, and change nothing else; every byte of memory reads as before. -/
def Obligations.LoadsTakeTheOperand : Prop :=
  ∀ (i : Instr) (s : State),
    let m := (i.operand.fetch s).1
    let q := { s.p with z := decide (m = 0), n := m.getLsbD 7 }
    let t := { s.after i (i.readTime s) with bus := (i.operand.fetch s).2.bus, p := q }
    (i.mnemonic = .lda → exec i s = .next { t with a := m }) ∧
    (i.mnemonic = .ldx → exec i s = .next { t with x := m }) ∧
    (i.mnemonic = .ldy → exec i s = .next { t with y := m }) ∧
    (i.mnemonic = .lax → exec i s = .next { t with a := m, x := m }) ∧
    SameMemory s t

/-- R153 to R155, R265: STA, STX, STY and SAX, in every mode they have, complete: one write of the register (A
and X for SAX) at the effective address, a fixed cycle count, no register and no flag changed; every byte of
memory outside the one stored reads as before, but that in cartridge space the supplied platform answers the
write (the form of log 5, DESIGN CHOICE). -/
def Obligations.StoresWriteOneByte : Prop :=
  ∀ (i : Instr) (s : State) (v : Byte),
    ((i.mnemonic = .sta ∧ v = s.a) ∨ (i.mnemonic = .stx ∧ v = s.x) ∨ (i.mnemonic = .sty ∧ v = s.y) ∨
      (i.mnemonic = .sax ∧ v = s.a &&& s.x)) →
    let t := { s.after i (writeCycles i.operand.mode) with bus := s.bus.write (i.operand.ea s) v }
    exec i s = .next t ∧ Stored (i.operand.ea s) v s t

/-- R156 to R161, R183 to R186: the transfers and the index increments and decrements have the opcodes of
their rules and complete in 2 cycles: they write one register and, but for TXS, N and Z from its new value;
nothing else. -/
def Obligations.RegisterMovesWriteOneRegister : Prop :=
  (encode .tax = [0xAA] ∧ encode .tay = [0xA8] ∧ encode .txa = [0x8A] ∧ encode .tya = [0x98] ∧
    encode .tsx = [0xBA] ∧ encode .txs = [0x9A] ∧ encode .inx = [0xE8] ∧ encode .iny = [0xC8] ∧
    encode .dex = [0xCA] ∧ encode .dey = [0x88]) ∧
  ∀ s : State,
    let q := fun v : Byte => { s.p with z := decide (v = 0), n := v.getLsbD 7 }
    exec .tax s = .next { s.after .tax 2 with x := s.a, p := q s.a } ∧
    exec .tay s = .next { s.after .tay 2 with y := s.a, p := q s.a } ∧
    exec .txa s = .next { s.after .txa 2 with a := s.x, p := q s.x } ∧
    exec .tya s = .next { s.after .tya 2 with a := s.y, p := q s.y } ∧
    exec .tsx s = .next { s.after .tsx 2 with x := s.sp, p := q s.sp } ∧
    exec .txs s = .next { s.after .txs 2 with sp := s.x } ∧
    exec .inx s = .next { s.after .inx 2 with x := s.x + 1, p := q (s.x + 1) } ∧
    exec .iny s = .next { s.after .iny 2 with y := s.y + 1, p := q (s.y + 1) } ∧
    exec .dex s = .next { s.after .dex 2 with x := s.x - 1, p := q (s.x - 1) } ∧
    exec .dey s = .next { s.after .dey 2 with y := s.y - 1, p := q (s.y - 1) }

/-! ### Arithmetic and logic -/

/-- R170, R172: ADC, in every mode, completes: A becomes A + M + C modulo 256 whatever D is; C is the carry out
of the exact sum, V tells that the signed sum leaves -128..127, Z and N are the result's; nothing else
changes. -/
def Obligations.AdcAddsWithCarry : Prop :=
  ∀ (i : Instr) (s : State), i.mnemonic = .adc →
    let m := (i.operand.fetch s).1
    let sum := s.a.toNat + m.toNat + s.p.c.toNat
    let exact := signed s.a + signed m + s.p.c.toNat
    let r := BitVec.ofNat 8 sum
    let t := { s.after i (i.readTime s) with
      bus := (i.operand.fetch s).2.bus
      a := r
      p := { s.p with c := decide (256 ≤ sum), z := decide (sum % 256 = 0), n := r.getLsbD 7,
                      v := decide (exact < -128 ∨ 127 < exact) } }
    exec i s = .next t ∧ SameMemory s t

/-- R173, R273: SBC, in every mode and as $EB, completes: A becomes A - M - (1 - C) modulo 256; C = 1 means no
borrow, V tells that the signed difference leaves -128..127, Z and N are the result's; nothing else
changes. -/
def Obligations.SbcSubtractsWithBorrow : Prop :=
  ∀ (i : Instr) (s : State), i.mnemonic = .sbc →
    let m := (i.operand.fetch s).1
    let borrow := if s.p.c then 0 else 1
    let exact := signed s.a - signed m - (borrow : Nat)
    let r := s.a - m - BitVec.ofNat 8 borrow
    let t := { s.after i (i.readTime s) with
      bus := (i.operand.fetch s).2.bus
      a := r
      p := { s.p with c := decide (m.toNat + borrow ≤ s.a.toNat), z := decide (r = 0), n := r.getLsbD 7,
                      v := decide (exact < -128 ∨ 127 < exact) } }
    exec i s = .next t ∧ SameMemory s t

/-- R174 to R176: AND, ORA and EOR, in every mode, complete: A becomes the bitwise result, N and Z are set from
it, nothing else changes. -/
def Obligations.LogicCombinesWithA : Prop :=
  ∀ (i : Instr) (s : State),
    let m := (i.operand.fetch s).1
    let t := fun r : Byte => { s.after i (i.readTime s) with
      bus := (i.operand.fetch s).2.bus, a := r,
      p := { s.p with z := decide (r = 0), n := r.getLsbD 7 } }
    (i.mnemonic = .and → exec i s = .next (t (s.a &&& m))) ∧
    (i.mnemonic = .ora → exec i s = .next (t (s.a ||| m))) ∧
    (i.mnemonic = .eor → exec i s = .next (t (s.a ^^^ m))) ∧
    SameMemory s (t 0)

/-- R171, R177 to R179: CMP, CPX and CPY, in every mode, complete: C tells register ≥ M unsigned, Z equality, N
bit 7 of the difference; the register, V and everything else stay. -/
def Obligations.ComparesSetFlagsOnly : Prop :=
  ∀ (i : Instr) (s : State),
    let m := (i.operand.fetch s).1
    let t := fun r : Byte => { s.after i (i.readTime s) with
      bus := (i.operand.fetch s).2.bus,
      p := { s.p with c := decide (m.toNat ≤ r.toNat), z := decide (r = m), n := (r - m).getLsbD 7 } }
    (i.mnemonic = .cmp → exec i s = .next (t s.a)) ∧
    (i.mnemonic = .cpx → exec i s = .next (t s.x)) ∧
    (i.mnemonic = .cpy → exec i s = .next (t s.y)) ∧
    SameMemory s (t 0)

/-- R180: BIT, in both modes, completes: Z from A & M, V and N from bits 6 and 7 of M; nothing else changes. -/
def Obligations.BitTestsMemory : Prop :=
  ∀ (i : Instr) (s : State), i.mnemonic = .bit →
    let m := (i.operand.fetch s).1
    let t := { s.after i (i.readTime s) with
      bus := (i.operand.fetch s).2.bus
      p := { s.p with z := decide (s.a &&& m = 0), v := m.getLsbD 6, n := m.getLsbD 7 } }
    exec i s = .next t ∧ SameMemory s t

/-- R131, R181, R182: INC and DEC, in every mode, complete: one read and one write of the effective address, the
byte one more or one less modulo 256, N and Z from it; nothing else changes, and every byte of memory
outside the one written reads as before, but that in cartridge space the supplied platform answers the write
(the form of log 5, DESIGN CHOICE). -/
def Obligations.IncDecStepMemory : Prop :=
  ∀ (i : Instr) (s : State) (r : Byte),
    ((i.mnemonic = .inc ∧ r = (i.operand.fetch s).1 + 1) ∨
      (i.mnemonic = .dec ∧ r = (i.operand.fetch s).1 - 1)) →
    let t := { s.after i (rmwCycles i.operand.mode) with
      bus := (i.operand.fetch s).2.bus.write (i.operand.ea s) r
      p := { s.p with z := decide (r = 0), n := r.getLsbD 7 } }
    exec i s = .next t ∧ Stored (i.operand.ea s) r s t

/-! ### Shifts -/

/-- R131, R200 to R204: ASL, LSR, ROL and ROR complete. The accumulator forms take 2 cycles and make no access; the
memory forms make one read and one write of the effective address. C gets the bit shifted out, the rotates take
the old C in, N and Z are the result's; nothing else changes, and every byte of memory outside the one written
reads as before, but that in cartridge space the supplied platform answers the write (the form of log 5, DESIGN
CHOICE). -/
def Obligations.ShiftsMoveCarry : Prop :=
  (∀ s : State,
    let t := fun (i : Instr) (r : Byte) (c : Bool) =>
      { s.after i 2 with a := r, p := { s.p with c := c, z := decide (r = 0), n := r.getLsbD 7 } }
    exec .aslAcc s = .next (t .aslAcc (BitVec.ofNat 8 (2 * s.a.toNat)) (s.a.getLsbD 7)) ∧
    exec .lsrAcc s = .next (t .lsrAcc (BitVec.ofNat 8 (s.a.toNat / 2)) (s.a.getLsbD 0)) ∧
    exec .rolAcc s = .next (t .rolAcc (BitVec.ofNat 8 (2 * s.a.toNat + s.p.c.toNat)) (s.a.getLsbD 7)) ∧
    exec .rorAcc s =
      .next (t .rorAcc (BitVec.ofNat 8 (s.a.toNat / 2 + 128 * s.p.c.toNat)) (s.a.getLsbD 0))) ∧
  ∀ (i : Instr) (s : State) (r : Byte) (c : Bool), i.operand.mode ≠ .accumulator →
    let m := (i.operand.fetch s).1
    ((i.mnemonic = .asl ∧ r = BitVec.ofNat 8 (2 * m.toNat) ∧ c = m.getLsbD 7) ∨
      (i.mnemonic = .lsr ∧ r = BitVec.ofNat 8 (m.toNat / 2) ∧ c = m.getLsbD 0) ∨
      (i.mnemonic = .rol ∧ r = BitVec.ofNat 8 (2 * m.toNat + s.p.c.toNat) ∧ c = m.getLsbD 7) ∨
      (i.mnemonic = .ror ∧ r = BitVec.ofNat 8 (m.toNat / 2 + 128 * s.p.c.toNat) ∧ c = m.getLsbD 0)) →
    let t := { s.after i (rmwCycles i.operand.mode) with
      bus := (i.operand.fetch s).2.bus.write (i.operand.ea s) r
      p := { s.p with c := c, z := decide (r = 0), n := r.getLsbD 7 } }
    exec i s = .next t ∧ Stored (i.operand.ea s) r s t

/-! ### Stack, flags, NOP -/

/-- R124, R210, R211: PHA ($48) and PHP ($08) complete in 3 cycles: they write A, or P with B and U set, at
$0100 + SP and decrement SP; no flag and no other register changes, and every other byte of memory reads as before. -/
def Obligations.PushesWriteTheStack : Prop :=
  (encode .pha = [0x48] ∧ encode .php = [0x08]) ∧
  ∀ s : State,
    let t := fun (i : Instr) (v : Byte) =>
      { s.after i 3 with sp := s.sp - 1, bus := s.bus.write (stackAddr s.sp) v }
    exec .pha s = .next (t .pha s.a) ∧ Stored (stackAddr s.sp) s.a s (t .pha s.a) ∧
    exec .php s = .next (t .php (s.p.toByte ||| 0x30)) ∧
    Stored (stackAddr s.sp) (s.p.toByte ||| 0x30) s (t .php (s.p.toByte ||| 0x30)) ∧
    (stackAddr s.sp).toNat = 0x100 + s.sp.toNat

/-- R125, R212, R213: PLA ($68) and PLP ($28) complete in 4 cycles: they increment SP and read the byte at
$0100 + SP; PLA puts it into A with N and Z, PLP into P with B = 0 and U = 1; the bus and every other register stay. -/
def Obligations.PullsReadTheStack : Prop :=
  (encode .pla = [0x68] ∧ encode .plp = [0x28]) ∧
  ∀ s : State,
    let m := (s.read (stackAddr (s.sp + 1))).1
    exec .pla s = .next { s.after .pla 4 with
      sp := s.sp + 1, a := m, p := { s.p with z := decide (m = 0), n := m.getLsbD 7 } } ∧
    exec .plp s = .next { s.after .plp 4 with
      sp := s.sp + 1, p := Status.ofByte ((m &&& 0xEF) ||| 0x20) } ∧
    (s.read (stackAddr (s.sp + 1))).2 = s

/-- R210, R213 (and L1.6): after PHP then PLP, P is as before with B = 0 and U = 1, and SP is as before. -/
def Obligations.PhpThenPlpRestoresStatus : Prop :=
  ∀ s t u : State, exec .php s = .next t → exec .plp t = .next u →
    u.p.toByte = (s.p.toByte &&& 0xEF) ||| 0x20 ∧ u.sp = s.sp ∧ u.a = s.a ∧ u.x = s.x ∧ u.y = s.y

/-- R214 to R220: the seven flag instructions have the opcodes of their rules, complete in 2 cycles and write
exactly the one flag they name. -/
def Obligations.FlagInstructionsWriteOneFlag : Prop :=
  (encode .clc = [0x18] ∧ encode .sec = [0x38] ∧ encode .cli = [0x58] ∧ encode .sei = [0x78] ∧
    encode .clv = [0xB8] ∧ encode .cld = [0xD8] ∧ encode .sed = [0xF8]) ∧
  ∀ s : State,
    exec .clc s = .next { s.after .clc 2 with p := { s.p with c := false } } ∧
    exec .sec s = .next { s.after .sec 2 with p := { s.p with c := true } } ∧
    exec .cli s = .next { s.after .cli 2 with p := { s.p with i := false } } ∧
    exec .sei s = .next { s.after .sei 2 with p := { s.p with i := true } } ∧
    exec .clv s = .next { s.after .clv 2 with p := { s.p with v := false } } ∧
    exec .cld s = .next { s.after .cld 2 with p := { s.p with d := false } } ∧
    exec .sed s = .next { s.after .sed 2 with p := { s.p with d := true } }

/-- R221, R274 to R276: every NOP, of 1, 2 or 3 bytes, completes: it moves PC past its bytes and counts its
cycles (one more when absolute,X crosses a page); it makes no access and changes nothing else. -/
def Obligations.NopsOnlyConsumeBytesAndCycles : Prop :=
  ∀ (i : Instr) (s : State), i.mnemonic = .nop → exec i s = .next (s.after i (i.readTime s))

/-! ### Control transfer -/

/-- R230 to R238: the eight branches have the opcodes of their rules and complete: each tests the one flag and
value of its rule; taken, PC becomes the next address plus the signed offset, at 3 cycles, 4 on another page; not
taken, PC is the next address, at 2 cycles. Nothing else changes. -/
def Obligations.BranchesTestOneFlag : Prop :=
  ∀ (s : State) (off : Byte),
    (encode (.bpl off) = [0x10, off] ∧ encode (.bmi off) = [0x30, off] ∧
      encode (.bvc off) = [0x50, off] ∧ encode (.bvs off) = [0x70, off] ∧
      encode (.bcc off) = [0x90, off] ∧ encode (.bcs off) = [0xB0, off] ∧
      encode (.bne off) = [0xD0, off] ∧ encode (.beq off) = [0xF0, off]) ∧
    exec (.bpl off) s = .next (s.branched (!s.p.n) off) ∧
    exec (.bmi off) s = .next (s.branched s.p.n off) ∧
    exec (.bvc off) s = .next (s.branched (!s.p.v) off) ∧
    exec (.bvs off) s = .next (s.branched s.p.v off) ∧
    exec (.bcc off) s = .next (s.branched (!s.p.c) off) ∧
    exec (.bcs off) s = .next (s.branched s.p.c off) ∧
    exec (.bne off) s = .next (s.branched (!s.p.z) off) ∧
    exec (.beq off) s = .next (s.branched s.p.z off)

/-- R239, R240, R99: JMP completes: absolute ($4C), PC becomes the operand, at 3 cycles, with no access; indirect
($6C), PC becomes the word whose low byte is read at the pointer and whose high byte is read on the same page, at 5
cycles. Nothing else changes; every byte of memory reads as before. -/
def Obligations.JumpsSetPcWithPageWrap : Prop :=
  ∀ (s : State) (a : Word),
    encode (.jmpAbs a) = [0x4C, loByte a, hiByte a] ∧ encode (.jmpInd a) = [0x6C, loByte a, hiByte a] ∧
    exec (.jmpAbs a) s = .next { s.after (.jmpAbs a) 3 with pc := a } ∧
    (let lo := s.bus.read a
     let hi := lo.2.read (BitVec.ofNat 16 (a.toNat / 256 * 256 + (a.toNat + 1) % 256))
     let t := { s.after (.jmpInd a) 5 with pc := mkWord hi.1 lo.1, bus := hi.2 }
     exec (.jmpInd a) s = .next t ∧ SameMemory s t)

/-- R241: JSR completes in 6 cycles: it pushes the address of its last byte, high byte first, and PC becomes
the target; no flag and no other register changes, and every other byte of memory reads as before. -/
def Obligations.JsrPushesReturnAddress : Prop :=
  ∀ (s : State) (a : Word),
    let t := { s.after (.jsr a) 6 with
      pc := a, sp := s.sp - 2,
      bus := (s.bus.write (stackAddr s.sp) (hiByte (s.pc + 2))).write (stackAddr (s.sp - 1))
        (loByte (s.pc + 2)) }
    exec (.jsr a) s = .next t ∧
    t.peek (stackAddr s.sp) = some (hiByte (s.pc + 2)) ∧
    t.peek (stackAddr (s.sp - 1)) = some (loByte (s.pc + 2)) ∧
    ∀ w : Word, locate w ≠ locate (stackAddr s.sp) → locate w ≠ locate (stackAddr (s.sp - 1)) →
      t.peek w = s.peek w

/-- R242: RTS completes in 6 cycles: it pulls the low, then the high byte, and PC becomes the address after
the one pulled, modulo 65536; the bus and every other register stay. -/
def Obligations.RtsPullsAndAddsOne : Prop :=
  encode .rts = [0x60] ∧
  ∀ s : State,
    let lo := s.read (stackAddr (s.sp + 1))
    let hi := lo.2.read (stackAddr (s.sp + 2))
    exec .rts s = .next { s.after .rts 6 with pc := mkWord hi.1 lo.1 + 1, sp := s.sp + 2 } ∧ hi.2 = s

/-- R243: a JSR pushes the address of its last byte and takes 2 from SP; if the subroutine leaves SP and the two
stack bytes as it found them, an RTS then sets PC to the address after the JSR and SP to what it was before
it. -/
def Obligations.JsrThenRtsReturns : Prop :=
  ∀ (s t u : State) (a : Word), exec (.jsr a) s = .next t →
    t.sp = s.sp - 2 ∧
    t.peek (stackAddr s.sp) = some (hiByte (s.pc + 2)) ∧
    t.peek (stackAddr (s.sp - 1)) = some (loByte (s.pc + 2)) ∧
    (u.sp = t.sp → u.peek (stackAddr s.sp) = t.peek (stackAddr s.sp) →
      u.peek (stackAddr (s.sp - 1)) = t.peek (stackAddr (s.sp - 1)) →
      ∃ w : State, exec .rts u = .next w ∧ w.pc = s.pc + 3 ∧ w.sp = s.sp)

/-- R244: RTI completes in 6 cycles: it pulls P, forcing U = 1, then PC, low byte first, with no +1; the bus and
every other register stay. -/
def Obligations.RtiRestoresStatusAndPc : Prop :=
  encode .rti = [0x40] ∧
  ∀ s : State,
    let v := s.read (stackAddr (s.sp + 1))
    let lo := v.2.read (stackAddr (s.sp + 2))
    let hi := lo.2.read (stackAddr (s.sp + 3))
    exec .rti s = .next { s.after .rti 6 with
      p := Status.ofByte (v.1 ||| 0x20), pc := mkWord hi.1 lo.1, sp := s.sp + 3 } ∧ hi.2 = s

/-- R245, R306: BRK ($00) completes in 7 cycles when `debugBreak` is off: an interrupt entry that pushes PC + 2
and P with B and U set, sets I and loads PC from $FFFE; under `debugBreak` it stops with no state change. That
its encoding is the opcode byte alone, without the signature byte, is the model's choice (log 23, DEDUCED). -/
def Obligations.BrkEntersThroughIrqVector : Prop :=
  encode .brk = [0x00] ∧
  ∀ s : State,
    (s.launch.debugBreak = true → exec .brk s = .fault (.breakEncountered s.pc)) ∧
    (s.launch.debugBreak = false →
      let t := s.entered (s.pc + 2) (s.p.toByte ||| 0x30) 0xFFFE
      exec .brk s = .next t ∧
      t.peek (stackAddr s.sp) = some (hiByte (s.pc + 2)) ∧
      t.peek (stackAddr (s.sp - 1)) = some (loByte (s.pc + 2)) ∧
      t.peek (stackAddr (s.sp - 2)) = some (s.p.toByte ||| 0x30) ∧
      SameMemoryButThreePushes s.sp s t)

/-! ### Unofficial opcodes -/

/-- R260 to R263: SLO, RLA and SRE, in every mode, complete: the byte at the effective address is shifted or
rotated and written back, C is the bit shifted out, and A is combined with the byte written, with N and Z
from A; nothing else changes, and every byte of memory outside the one written reads as before, but that in
cartridge space the supplied platform answers the write (the form of log 5, DESIGN CHOICE). -/
def Obligations.ComposedShiftsCombineWithA : Prop :=
  ∀ (i : Instr) (s : State) (r a : Byte) (c : Bool),
    let m := (i.operand.fetch s).1
    ((i.mnemonic = .slo ∧ r = BitVec.ofNat 8 (2 * m.toNat) ∧ c = m.getLsbD 7 ∧ a = s.a ||| r) ∨
      (i.mnemonic = .rla ∧ r = BitVec.ofNat 8 (2 * m.toNat + s.p.c.toNat) ∧ c = m.getLsbD 7 ∧
        a = s.a &&& r) ∨
      (i.mnemonic = .sre ∧ r = BitVec.ofNat 8 (m.toNat / 2) ∧ c = m.getLsbD 0 ∧ a = s.a ^^^ r)) →
    let t := { s.after i (rmwCycles i.operand.mode) with
      bus := (i.operand.fetch s).2.bus.write (i.operand.ea s) r
      a := a
      p := { s.p with c := c, z := decide (a = 0), n := a.getLsbD 7 } }
    exec i s = .next t ∧ Stored (i.operand.ea s) r s t

/-- R260, R264, R267, R268: RRA, ISC and DCP, in every mode, complete: the byte at the effective address is rotated
right (incremented, decremented) and written back. For RRA and ISC, A takes the sum with the byte written and the
rotate's carry out (the difference with the incoming C as no-borrow), with the flags of that operation; for
DCP, A is compared with the byte written, A and V staying. Nothing else changes, and every byte of memory
outside the one written reads as before, but that in cartridge space the supplied platform answers the write
(the form of log 5, DESIGN CHOICE). -/
def Obligations.ComposedArithmeticUpdatesA : Prop :=
  (∀ (i : Instr) (s : State) (r op : Byte) (cin : Bool),
    let m := (i.operand.fetch s).1
    ((i.mnemonic = .rra ∧ r = BitVec.ofNat 8 (m.toNat / 2 + 128 * s.p.c.toNat) ∧ op = r ∧
        cin = m.getLsbD 0) ∨
      (i.mnemonic = .isc ∧ r = m + 1 ∧ op = ~~~r ∧ cin = s.p.c)) →
    let sum := s.a.toNat + op.toNat + cin.toNat
    let exact := signed s.a + signed op + cin.toNat
    let t := { s.after i (rmwCycles i.operand.mode) with
      bus := (i.operand.fetch s).2.bus.write (i.operand.ea s) r
      a := BitVec.ofNat 8 sum
      p := { s.p with c := decide (256 ≤ sum), z := decide (sum % 256 = 0),
                      n := (BitVec.ofNat 8 sum).getLsbD 7,
                      v := decide (exact < -128 ∨ 127 < exact) } }
    exec i s = .next t ∧ Stored (i.operand.ea s) r s t) ∧
  ∀ (i : Instr) (s : State), i.mnemonic = .dcp →
    let r := (i.operand.fetch s).1 - 1
    let t := { s.after i (rmwCycles i.operand.mode) with
      bus := (i.operand.fetch s).2.bus.write (i.operand.ea s) r
      p := { s.p with c := decide (r.toNat ≤ s.a.toNat), z := decide (s.a = r),
                      n := (s.a - r).getLsbD 7 } }
    exec i s = .next t ∧ Stored (i.operand.ea s) r s t

/-- R269 to R272: ANC, ALR, ARR and AXS complete in 2 cycles, with their results and their special C and V;
nothing else changes and the bus is untouched. -/
def Obligations.ImmediateUnofficialOperations : Prop :=
  ∀ (s : State) (op v : Byte),
    let t := s.a &&& v
    let u := s.a &&& s.x
    let half := BitVec.ofNat 8 (t.toNat / 2 + 128 * s.p.c.toNat)
    exec (.anc op v) s = .next { s.after (.anc op v) 2 with
      a := t, p := { s.p with c := t.getLsbD 7, z := decide (t = 0), n := t.getLsbD 7 } } ∧
    exec (.alr v) s = .next { s.after (.alr v) 2 with
      a := BitVec.ofNat 8 (t.toNat / 2),
      p := { s.p with c := t.getLsbD 0, z := decide (t.toNat < 2), n := false } } ∧
    exec (.arr v) s = .next { s.after (.arr v) 2 with
      a := half,
      p := { s.p with c := half.getLsbD 6, v := half.getLsbD 6 != half.getLsbD 5,
                      z := decide (half = 0), n := s.p.c } } ∧
    exec (.axs v) s = .next { s.after (.axs v) 2 with
      x := u - v, p := { s.p with c := decide (v.toNat ≤ u.toNat), z := decide (u = v),
                                  n := (u - v).getLsbD 7 } }

/-- R277, R122: JAM completes by halting the core: PC is one past the opcode, no cycle is counted, nothing else
changes; and whatever the PPU or the host does next, short of a reset, a step of a jammed core has no
successor (log 1). -/
def Obligations.JamHaltsTheCore : Prop :=
  (∀ (s : State) (op : Byte), exec (.jam op) s = .next { s with pc := s.pc + 1, jammed := true }) ∧
  ∀ s : State, s.mark = none → s.jammed = true → s.resetPending = false →
    HostEvent.quit ∉ s.arriving → HostEvent.userReset ∉ s.arriving → step s = .fault .jammed

/-- R278 to R285: the unstable opcodes apply no state change and stop on every path: SHA, TAS, SHX and SHY with
the fault UnsupportedOpcode under `strictMode`, and in every other case with the refusal Unstable. -/
def Obligations.UnstableOpcodesStop : Prop :=
  ∀ (s : State) (i : Instr),
    (i.mnemonic = .ane ∨ i.mnemonic = .lxa ∨ i.mnemonic = .las →
      exec i s = .refused (.unstable i.opcode)) ∧
    (i.mnemonic = .sha ∨ i.mnemonic = .tas ∨ i.mnemonic = .shx ∨ i.mnemonic = .shy →
      (s.launch.strictMode = true → exec i s = .fault (.unsupportedOpcode i.opcode)) ∧
      (s.launch.strictMode = false → exec i s = .refused (.unstable i.opcode)))

/-! ### Rules about the whole instruction set -/

/-- R21 to R24: A, X, Y and SP are written by no instruction but those the rules list. R36, R38, R39, R123, R331,
R334: no instruction changes the NMI latch, the pending reset, the jam (but JAM), the stall, the PAL budget, the
mark or the launch parameters; nor what is still to arrive (log 8). -/
def Obligations.OnlyListedInstructionsWriteRegisters : Prop :=
  ∀ (i : Instr) (s t : State), exec i s = .next t →
    (i.mnemonic ∉ [.lda, .pla, .txa, .tya, .adc, .sbc, .and, .ora, .eor, .asl, .lsr, .rol, .ror, .lax,
      .slo, .rla, .sre, .rra, .isc, .anc, .alr, .arr] → t.a = s.a) ∧
    (i.mnemonic ∈ [.asl, .lsr, .rol, .ror] → i.operand.mode ≠ .accumulator → t.a = s.a) ∧
    (i.mnemonic ∉ [.ldx, .tax, .tsx, .inx, .dex, .lax, .axs] → t.x = s.x) ∧
    (i.mnemonic ∉ [.ldy, .tay, .iny, .dey] → t.y = s.y) ∧
    (i.mnemonic ∉ [.txs, .pha, .php, .pla, .plp, .jsr, .rts, .rti, .brk] → t.sp = s.sp) ∧
    (i.mnemonic ≠ .jam → t.jammed = s.jammed) ∧
    t.nmiLatch = s.nmiLatch ∧ t.resetPending = s.resetPending ∧ t.stall = s.stall ∧
    t.dotBudget = s.dotBudget ∧ t.mark = s.mark ∧ t.launch = s.launch ∧ t.bus.cart = s.bus.cart ∧
    t.inputs = s.inputs

/-- R27 to R34: C, Z, I, D, B, U, V and N are written by no instruction but those the rules list. -/
def Obligations.OnlyListedInstructionsWriteFlags : Prop :=
  ∀ (i : Instr) (s t : State), exec i s = .next t →
    (i.mnemonic ∉ [.adc, .sbc, .cmp, .cpx, .cpy, .asl, .lsr, .rol, .ror, .clc, .sec, .plp, .rti, .slo,
      .rla, .sre, .rra, .dcp, .isc, .anc, .alr, .arr, .axs] → t.p.c = s.p.c) ∧
    (i.mnemonic ∉ [.lda, .ldx, .ldy, .lax, .tax, .tay, .txa, .tya, .tsx, .pla, .adc, .sbc, .and, .ora, .eor,
      .cmp, .cpx, .cpy, .bit, .inc, .dec, .inx, .iny, .dex, .dey, .asl, .lsr, .rol, .ror, .plp, .rti, .slo,
      .rla, .sre, .rra, .dcp, .isc, .anc, .alr, .arr, .axs] → t.p.z = s.p.z ∧ t.p.n = s.p.n) ∧
    (i.mnemonic ∉ [.sei, .cli, .plp, .rti, .brk] → t.p.i = s.p.i) ∧
    (i.mnemonic ∉ [.sed, .cld, .plp, .rti] → t.p.d = s.p.d) ∧
    (i.mnemonic ∉ [.plp, .rti] → t.p.b = s.p.b ∧ t.p.u = s.p.u) ∧
    (i.mnemonic ∉ [.adc, .sbc, .bit, .clv, .plp, .rti, .rra, .isc, .arr] → t.p.v = s.p.v)

/-- R30, R187: no instruction's result depends on D: but for the instructions that push or write P, executing
with the decimal flag changed gives the same outcome with the decimal flag changed. -/
def Obligations.DecimalFlagChangesNoResult : Prop :=
  ∀ (i : Instr) (s : State) (d : Bool), i.mnemonic ∉ [.php, .brk, .plp, .rti, .cld, .sed] →
    exec i { s with p := { s.p with d := d } } = withDecimal d (exec i s)
end

