-- ==== Sys2Proof/Laws/Bits.lean ====
section
/-! SUPPORT. Lemmas about the byte-order helpers, the status byte and the flag computations: each says in the
spec's own terms what a definition of Decode.lean or Machine/Flags.lean gives. -/
namespace Sys2Proof.Laws

open Sys2Proof.Machine

/-! ### Bytes and words -/

theorem mkWord_toNat (hi lo : Byte) : (mkWord hi lo).toNat = hi.toNat * 256 + lo.toNat := by
  have := lo.isLt
  simp only [mkWord, BitVec.toNat_append, Nat.shiftLeft_eq]
  rw [← Nat.shiftLeft_eq, ← Nat.shiftLeft_add_eq_or_of_lt (by simpa using this), Nat.shiftLeft_eq]

theorem loByte_toNat (v : Word) : (loByte v).toNat = v.toNat % 256 := by
  simp [loByte, BitVec.extractLsb'_toNat]

theorem hiByte_toNat (v : Word) : (hiByte v).toNat = v.toNat / 256 := by
  have := v.isLt
  simp [hiByte, BitVec.extractLsb'_toNat, Nat.shiftRight_eq_div_pow]; omega

@[simp] theorem loByte_mkWord (hi lo : Byte) : loByte (mkWord hi lo) = lo := by
  apply BitVec.eq_of_toNat_eq; rw [loByte_toNat, mkWord_toNat]; omega

@[simp] theorem hiByte_mkWord (hi lo : Byte) : hiByte (mkWord hi lo) = hi := by
  apply BitVec.eq_of_toNat_eq; rw [hiByte_toNat, mkWord_toNat]; omega

@[simp] theorem mkWord_hiByte_loByte (v : Word) : mkWord (hiByte v) (loByte v) = v := by
  apply BitVec.eq_of_toNat_eq; rw [mkWord_toNat, loByte_toNat, hiByte_toNat]; omega

theorem zext16_eq_mkWord (b : Byte) : zext16 b = mkWord 0 b := by
  apply BitVec.eq_of_toNat_eq; rw [mkWord_toNat]; simp [zext16]; omega

@[simp] theorem zext16_toNat (b : Byte) : (zext16 b).toNat = b.toNat := by
  simp [zext16]; omega

/-- Adding an index is exact modulo 65536 (30_encoding.md R95, R96, R98). -/
theorem add_zext16_toNat (a : Word) (b : Byte) : (a + zext16 b).toNat = (a.toNat + b.toNat) % 65536 := by
  simp [BitVec.toNat_add]

/-- A page cross is a change of the page number (30_encoding.md R87). -/
theorem hiByte_bne_iff (a b : Word) : (hiByte a != hiByte b) = true ↔ a.toNat / 256 ≠ b.toNat / 256 := by
  rw [bne_iff_ne, ← hiByte_toNat, ← hiByte_toNat, ne_eq, ne_eq, BitVec.toNat_inj]

/-! ### The status byte -/

@[simp] theorem ofByte_toByte (p : Status) : Status.ofByte p.toByte = p := by
  rcases p with ⟨_ | _, _ | _, _ | _, _ | _, _ | _, _ | _, _ | _, _ | _⟩ <;> rfl

@[simp] theorem toByte_ofByte (v : Byte) : (Status.ofByte v).toByte = v := by
  revert v; decide

theorem pushedByInstruction_eq (p : Status) : p.pushedByInstruction = p.toByte ||| 0x30 := by
  rcases p with ⟨_ | _, _ | _, _ | _, _ | _, _ | _, _ | _, _ | _, _ | _⟩ <;> rfl

theorem pushedByInterrupt_eq (p : Status) : p.pushedByInterrupt = (p.toByte &&& 0xEF) ||| 0x20 := by
  rcases p with ⟨_ | _, _ | _, _ | _, _ | _, _ | _, _ | _, _ | _, _ | _⟩ <;> rfl

theorem pulledByPlp_eq (v : Byte) : Status.pulledByPlp v = Status.ofByte ((v &&& 0xEF) ||| 0x20) := by
  revert v; decide

theorem pulledByRti_eq (v : Byte) : Status.pulledByRti v = Status.ofByte (v ||| 0x20) := by
  revert v; decide

/-! ### Arithmetic -/

theorem cpl_eq_xor (m : Byte) : m ^^^ 0xFF = ~~~m := by revert m; decide

/-- The value of a byte in two's complement (00_scope.md R8). -/
theorem toInt_eq (v : Byte) : v.toInt = if v.toNat < 128 then (v.toNat : Int) else v.toNat - 256 := by
  simp only [BitVec.toInt_eq_toNat_cond]
  have := v.isLt
  split <;> split <;> omega

theorem msb_iff (v : Byte) : v.getLsbD 7 = decide (128 ≤ v.toNat) := by
  revert v; decide

theorem addResult_toNat (a b : Byte) (c : Bool) : (addResult a b c).toNat = addSum a b c % 256 := by
  simp [addResult]

/-- C after an addition is the carry out of the exact sum. -/
theorem afterAdd_c (p : Status) (a b : Byte) (c : Bool) :
    (p.afterAdd a b c).c = decide (256 ≤ addSum a b c) := by
  simp [Status.afterAdd, Nat.lt_iff_add_one_le]

/-- V after an addition tells that the exact signed sum leaves the byte range (42_alu.md R170). -/
theorem addOverflow_eq (a b : Byte) (c : Bool) :
    addOverflow a b (addResult a b c)
      = decide (a.toInt + b.toInt + c.toNat < -128 ∨ 127 < a.toInt + b.toInt + c.toNat) := by
  have hr := addResult_toNat a b c
  have ha := a.isLt
  have hb := b.isLt
  have hc : c.toNat ≤ 1 := by cases c <;> simp
  simp only [addSum] at hr
  have : addOverflow a b (addResult a b c)
      = (!(a.getLsbD 7 ^^ b.getLsbD 7) && (a.getLsbD 7 ^^ (addResult a b c).getLsbD 7)) := by
    simp [addOverflow]
  rw [this, msb_iff, msb_iff, msb_iff, hr, toInt_eq, toInt_eq, Bool.eq_iff_iff]
  simp only [Bool.and_eq_true, Bool.not_eq_true', bne_iff_ne, ne_eq, decide_eq_true_eq, bne_eq_false_iff_eq,
    decide_eq_decide]
  split <;> split <;> omega

/-- A subtraction is an addition of the complement (42_alu.md R173). -/
theorem addResult_cpl (a m : Byte) (c : Bool) :
    addResult a (~~~m) c = a - m - BitVec.ofNat 8 (if c then 0 else 1) := by
  apply BitVec.eq_of_toNat_eq
  rw [addResult_toNat]
  have ha := a.isLt
  have hm := m.isLt
  cases c <;> simp [addSum, BitVec.toNat_sub, BitVec.toNat_not] <;> omega

theorem sub_eq_zero_iff (a m : Byte) : a - m = 0 ↔ a = m := by
  constructor
  · intro h; bv_omega
  · rintro rfl; simp

/-! ### Shifts, in numbers (43_shift_rotate.md R201 to R204) -/

theorem aslOp_eq (v : Byte) (c : Bool) : aslOp v c = (BitVec.ofNat 8 (2 * v.toNat), v.getLsbD 7) := by
  revert v c; decide

theorem lsrOp_eq (v : Byte) (c : Bool) : lsrOp v c = (BitVec.ofNat 8 (v.toNat / 2), v.getLsbD 0) := by
  revert v c; decide

theorem rolOp_eq (v : Byte) (c : Bool) :
    rolOp v c = (BitVec.ofNat 8 (2 * v.toNat + c.toNat), v.getLsbD 7) := by
  revert v c; decide

theorem rorOp_eq (v : Byte) (c : Bool) :
    rorOp v c = (BitVec.ofNat 8 (v.toNat / 2 + 128 * c.toNat), v.getLsbD 0) := by
  revert v c; decide

end Sys2Proof.Laws
end

