-- ==== Sys2Proof/Laws/Memory.lean ====
section
/-! SUPPORT. The laws of memory: a read after a write, the canonical form kept, and which keys are listed. -/
namespace Sys2Proof.Machine

/-- A read after a write: the byte written at its key, every other key as before. -/
theorem Memory.lookup_set (m : Memory) (a b : Nat) (v : Byte) :
    (m.set a v).lookup b = if b = a then some v else m.lookup b := by
  induction m with
  | nil => simp [Memory.set, Memory.lookup]
  | cons c m ih =>
    obtain ⟨k, w⟩ := c
    simp only [Memory.set]
    by_cases h1 : a < k
    · simp only [h1, if_true, Memory.lookup]
    · by_cases h2 : a = k
      · subst h2
        simp only [lt_irrefl, if_false, if_true, Memory.lookup]
        by_cases hb : b = a <;> simp [hb]
      · simp only [h1, h2, if_false, Memory.lookup, ih]
        by_cases hb : b = k
        · subst hb; simp [Ne.symm h2]
        · simp [hb]

@[simp] theorem Memory.lookup_set_same (m : Memory) (a : Nat) (v : Byte) :
    (m.set a v).lookup a = some v := by simp [Memory.lookup_set]

theorem Memory.lookup_set_other (m : Memory) {a b : Nat} (v : Byte) (h : b ≠ a) :
    (m.set a v).lookup b = m.lookup b := by simp [Memory.lookup_set, h]

/-- The entries after a write are the old ones and the one written. -/
theorem Memory.mem_set {m : Memory} {a : Nat} {v : Byte} {c : Host.Cell} (h : c ∈ m.set a v) :
    c = (a, v) ∨ c ∈ m := by
  induction m with
  | nil => simpa [Memory.set] using h
  | cons d m ih =>
    obtain ⟨k, w⟩ := d
    simp only [Memory.set] at h
    split at h
    · simpa using h
    · split at h
      · rcases List.mem_cons.mp h with h | h
        · exact .inl h
        · exact .inr (List.mem_cons_of_mem _ h)
      · rcases List.mem_cons.mp h with h | h
        · exact .inr (h ▸ List.mem_cons_self)
        · exact (ih h).imp id (List.mem_cons_of_mem _)

/-- A write keeps the canonical form. -/
theorem Memory.set_wf {m : Memory} (a : Nat) (v : Byte) (h : m.wf) : (m.set a v).wf := by
  induction m with
  | nil => simp [Memory.set, Memory.wf]
  | cons d m ih =>
    obtain ⟨k, w⟩ := d
    obtain ⟨hk, hm⟩ := List.pairwise_cons.mp h
    simp only [Memory.set]
    split
    · rename_i hak
      refine List.pairwise_cons.mpr ⟨fun c hc => ?_, h⟩
      rcases List.mem_cons.mp hc with rfl | hc
      · exact hak
      · exact hak.trans (hk c hc)
    · split
      · rename_i hak
        exact List.pairwise_cons.mpr ⟨fun c hc => hak ▸ hk c hc, hm⟩
      · rename_i h1 h2
        refine List.pairwise_cons.mpr ⟨fun c hc => ?_, ih hm⟩
        rcases Memory.mem_set hc with rfl | hc
        · exact lt_of_le_of_ne (not_lt.mp h1) (Ne.symm h2)
        · exact hk c hc

/-- Taking a key out leaves every other key as it was. -/
theorem Memory.lookup_erase (m : Memory) (a b : Nat) :
    (m.erase a).lookup b = if b = a then none else m.lookup b := by
  induction m with
  | nil => simp [Memory.erase, Memory.lookup]
  | cons c m ih =>
    obtain ⟨k, w⟩ := c
    simp only [Memory.erase, List.filter_cons, bne_iff_ne, ne_eq] at ih ⊢
    by_cases h1 : k = a
    · subst h1
      simp only [not_true_eq_false, if_false, ih, Memory.lookup]
      split <;> simp_all
    · simp only [h1, not_false_eq_true, if_true, Memory.lookup, ih]
      by_cases hb : b = k
      · subst hb; simp [h1]
      · simp [hb]

theorem Memory.lookup_put (m : Memory) (a b : Nat) (o : Option Byte) :
    (m.put a o).lookup b = if b = a then o else m.lookup b := by
  cases o with
  | none => exact m.lookup_erase a b
  | some v => exact m.lookup_set a b v

theorem Memory.put_wf {m : Memory} (a : Nat) (o : Option Byte) (h : m.wf) : (m.put a o).wf := by
  cases o with
  | none => exact h.filter _
  | some v => exact Memory.set_wf a v h

/-- The entries after a put are old ones, or the one at its key. -/
theorem Memory.mem_put {m : Memory} {a : Nat} {o : Option Byte} {c : Host.Cell} (h : c ∈ m.put a o) :
    c.1 = a ∨ c ∈ m := by
  cases o with
  | none => exact .inr (List.mem_of_mem_filter h)
  | some v => exact (Memory.mem_set h).imp (fun e => by rw [e]) id

/-- A key below every listed key is not listed. -/
theorem Memory.lookup_none_of_lt {m : Memory} {a : Nat} (h : ∀ c ∈ m, a < c.1) : m.lookup a = none := by
  induction m with
  | nil => rfl
  | cons d m ih =>
    obtain ⟨k, w⟩ := d
    have hk : a < k := h (k, w) List.mem_cons_self
    simp only [Memory.lookup, hk.ne, if_false]
    exact ih fun c hc => h c (List.mem_cons_of_mem _ hc)

/-- Two canonical memories that list the same byte at every key are the same data. -/
theorem Memory.ext_lookup {m n : Memory} (hm : m.wf) (hn : n.wf) (h : ∀ a, m.lookup a = n.lookup a) :
    m = n := by
  induction m generalizing n with
  | nil =>
    cases n with
    | nil => rfl
    | cons d n => have := h d.1; simp [Memory.lookup] at this
  | cons c m ih =>
    cases n with
    | nil => have := h c.1; simp [Memory.lookup] at this
    | cons d n =>
      obtain ⟨hcm, hm'⟩ := List.pairwise_cons.mp hm
      obtain ⟨hdn, hn'⟩ := List.pairwise_cons.mp hn
      have key : c.1 = d.1 := by
        rcases lt_trichotomy c.1 d.1 with hlt | heq | hgt
        · have h1 := h c.1
          have h2 : Memory.lookup (d :: n) c.1 = none := Memory.lookup_none_of_lt fun e he => by
            rcases List.mem_cons.mp he with rfl | he
            · exact hlt
            · exact hlt.trans (hdn e he)
          rw [h2] at h1; simp [Memory.lookup] at h1
        · exact heq
        · have h1 := h d.1
          have h2 : Memory.lookup (c :: m) d.1 = none := Memory.lookup_none_of_lt fun e he => by
            rcases List.mem_cons.mp he with rfl | he
            · exact hgt
            · exact hgt.trans (hcm e he)
          rw [h2] at h1; simp [Memory.lookup] at h1
      obtain ⟨k, v⟩ := c
      obtain ⟨l, w⟩ := d
      obtain rfl : k = l := key
      have hv := h k
      simp only [Memory.lookup, if_true, Option.some.injEq] at hv
      subst hv
      congr 1
      refine ih hm' hn' fun a => ?_
      by_cases ha : a = k
      · subst ha
        rw [Memory.lookup_none_of_lt hcm, Memory.lookup_none_of_lt hdn]
      · simpa [Memory.lookup, ha] using h a

end Sys2Proof.Machine
end

