-- ==== Sys2Proof/Laws/Cart.lean ====
section
/-! SUPPORT. What a cartridge's answer does to the bytes in view: those of cartridge space become what it shows,
internal RAM stays, the canonical form is kept, and no key outside cartridge space is listed. -/
namespace Sys2Proof.Machine

theorem showBytes_lookup {a : Word} (h : 0x4020 ≤ a.toNat) (es : List (Word × Option Byte)) (m : Memory) :
    (showBytes m es).lookup a.toNat = shownAt a (m.lookup a.toNat) es := by
  induction es generalizing m with
  | nil => rfl
  | cons e es ih =>
    obtain ⟨w, o⟩ := e
    rw [showBytes, shownAt, ih]
    congr 1
    by_cases hw : w = a
    · subst hw; simp [h, Memory.lookup_put]
    · have : a.toNat ≠ w.toNat := fun e => hw (BitVec.toNat_inj.mp e.symm)
      simp only [hw, if_false]
      split <;> simp [Memory.lookup_put, this]

theorem showBytes_lookup_below {k : Nat} (h : k < 0x4020) (es : List (Word × Option Byte)) (m : Memory) :
    (showBytes m es).lookup k = m.lookup k := by
  induction es generalizing m with
  | nil => rfl
  | cons e es ih =>
    rw [showBytes, ih]
    split
    · rw [Memory.lookup_put, if_neg (by omega)]
    · rfl

theorem showBytes_wf (es : List (Word × Option Byte)) {m : Memory} (h : m.wf) : (showBytes m es).wf := by
  induction es generalizing m with
  | nil => exact h
  | cons e es ih =>
    apply ih
    split
    · exact Memory.put_wf _ _ h
    · exact h

theorem mem_showBytes {es : List (Word × Option Byte)} {m : Memory} {c : Host.Cell}
    (h : c ∈ showBytes m es) : (0x4020 ≤ c.1 ∧ c.1 < 0x10000) ∨ c ∈ m := by
  induction es generalizing m with
  | nil => exact .inr h
  | cons e es ih =>
    rcases ih h with h | h
    · exact .inl h
    · split at h
      · rcases Memory.mem_put h with h' | h'
        · have := e.1.isLt; exact .inl (by omega)
        · exact .inr h'
      · exact .inr h

end Sys2Proof.Machine
end

