-- ==== Sys2Proof/Laws/Bus.lean ====
section
/-! SUPPORT. The laws of the CPU bus: what answers an address, what a read and a write leave unchanged, and that
both keep the bus in order. -/
namespace Sys2Proof.Machine

open Sys2Proof.Laws

/-! ### Which device answers -/

theorem locate_ram {a : Word} (h : a.toNat < 0x2000) : locate a = .ram (a.setWidth 11) := by
  simp [locate, h]

theorem locate_ppu {a : Word} (h : 0x2000 ≤ a.toNat) (h' : a.toNat < 0x4000) :
    locate a = .ppu (a.setWidth 3) := by
  simp [locate, Nat.not_lt.mpr h, h']

theorem locate_cart {a : Word} (h : 0x4020 ≤ a.toNat) : locate a = .cart a := by
  simp only [locate]
  repeat' split
  all_goals first | omega | rfl

/-- Only addresses below $2000 name internal RAM, and they name the byte `a & 0x07FF` (20_memory.md R52). -/
theorem eq_of_locate_ram {a : Word} {i : BitVec 11} (h : locate a = .ram i) :
    a.toNat < 0x2000 ∧ i = a.setWidth 11 := by
  simp only [locate] at h
  repeat' split at h
  all_goals simp_all

/-- Only addresses from $4020 on are cartridge space (20_memory.md R56). -/
theorem eq_of_locate_cart {a c : Word} (h : locate a = .cart c) : 0x4020 ≤ a.toNat ∧ c = a := by
  simp only [locate] at h
  repeat' split at h
  all_goals simp_all

@[simp] theorem stackAddr_toNat (sp : Byte) : (stackAddr sp).toNat = 0x100 + sp.toNat := by
  simp [stackAddr, BitVec.toNat_add]; omega

@[simp] theorem stackIndex_toNat (sp : Byte) : (stackIndex sp).toNat = 0x100 + sp.toNat := by
  simp [stackIndex, BitVec.toNat_add]; omega

theorem locate_stackAddr (sp : Byte) : locate (stackAddr sp) = .ram (stackIndex sp) := by
  rw [locate_ram (by simp; omega)]
  congr 1
  apply BitVec.eq_of_toNat_eq
  rw [stackIndex_toNat, BitVec.toNat_setWidth, stackAddr_toNat]; omega

theorem locate_mkWord_zero (b : Byte) : locate (mkWord 0 b) = .ram (b.setWidth 11) := by
  rw [← zext16_eq_mkWord, locate_ram (by simp; omega)]
  congr 1
  apply BitVec.eq_of_toNat_eq
  rw [BitVec.toNat_setWidth, BitVec.toNat_setWidth, zext16_toNat]

theorem locate_ne_of_ram_ne {a b : Word} {i j : BitVec 11} (ha : locate a = .ram i)
    (hb : locate b = .ram j) : locate a ≠ locate b ↔ i ≠ j := by
  simp [ha, hb]

/-! ### RAM bytes -/

theorem Bus.ramByte_setRam (b : Bus) (i j : BitVec 11) (v : Byte) :
    (b.setRam i v).ramByte j = if j = i then v else b.ramByte j := by
  simp only [ramByte, setRam, Memory.lookup_set, BitVec.toNat_inj]
  split <;> simp_all

@[simp] theorem Bus.ramByte_setRam_same (b : Bus) (i : BitVec 11) (v : Byte) :
    (b.setRam i v).ramByte i = v := by simp [Bus.ramByte_setRam]

theorem Bus.ramByte_congr {b c : Bus} (h : c.mem = b.mem) (i : BitVec 11) : c.ramByte i = b.ramByte i := by
  simp [Bus.ramByte, h]

/-! ### Reads -/

/-- A read of internal RAM has no side effect (20_memory.md R52). -/
theorem Bus.read_ram (b : Bus) {a : Word} {i : BitVec 11} (h : locate a = .ram i) :
    b.read a = (b.ramByte i, b) := by
  simp [Bus.read, h]

@[simp] theorem Bus.read_stackAddr (b : Bus) (sp : Byte) :
    b.read (stackAddr sp) = (b.ramByte (stackIndex sp), b) := b.read_ram (locate_stackAddr sp)

/-- A read changes no listed byte. -/
@[simp] theorem Bus.read_mem (b : Bus) (w : Word) : (b.read w).2.mem = b.mem := by
  unfold Bus.read
  split <;> try rfl
  unfold Bus.readCart
  split <;> rfl

theorem Bus.peek_congr {b c : Bus} (h : c.mem = b.mem) (a : Word) : c.peek a = b.peek a := by
  simp [Bus.peek, Bus.ramByte, h]

@[simp] theorem Bus.read_peek (b : Bus) (w a : Word) : (b.read w).2.peek a = b.peek a :=
  Bus.peek_congr (b.read_mem w) a

/-- A read of plain memory returns its byte and has no side effect. -/
theorem Bus.read_of_peek {b : Bus} {w : Word} {v : Byte} (h : b.peek w = some v) : b.read w = (v, b) := by
  unfold Bus.peek at h
  unfold Bus.read
  split at h
  · rename_i heq; simp_all
  · rename_i heq
    simp only [heq, Bus.readCart, h]
  · simp at h

/-- A read changes neither the mapper's IRQ output nor the DMA page. -/
@[simp] theorem Bus.read_mapperIrq (b : Bus) (w : Word) : (b.read w).2.mapperIrq = b.mapperIrq := by
  unfold Bus.read
  split <;> try rfl
  unfold Bus.readCart
  split <;> rfl

@[simp] theorem Bus.read_dmaPage (b : Bus) (w : Word) : (b.read w).2.dmaPage = b.dmaPage := by
  unfold Bus.read
  split <;> try rfl
  unfold Bus.readCart
  split <;> rfl

/-- No read changes the supplied cartridge or the state of its machine. -/
@[simp] theorem Bus.read_cart (b : Bus) (w : Word) : (b.read w).2.cart = b.cart := by
  unfold Bus.read
  split <;> try rfl
  unfold Bus.readCart
  split <;> rfl

@[simp] theorem Bus.read_cartState (b : Bus) (w : Word) : (b.read w).2.cartState = b.cartState := by
  unfold Bus.read
  split <;> try rfl
  unfold Bus.readCart
  split <;> rfl

/-- A read of a PPU port leaves OAM and the position in the frame. -/
theorem Ppu.readPort_keeps (p : Ppu) (r : BitVec 3) (k : Nat) :
    (p.readPort r k).2.oam = p.oam ∧ (p.readPort r k).2.line = p.line ∧ (p.readPort r k).2.dot = p.dot ∧
    (p.readPort r k).2.frame = p.frame := by
  unfold Ppu.readPort
  split <;> exact ⟨rfl, rfl, rfl, rfl⟩

theorem Bus.read_ppu_keeps (b : Bus) (w : Word) :
    (b.read w).2.ppu.oam = b.ppu.oam ∧ (b.read w).2.ppu.line = b.ppu.line ∧
    (b.read w).2.ppu.dot = b.ppu.dot ∧ (b.read w).2.ppu.frame = b.ppu.frame := by
  unfold Bus.read
  split <;> try exact ⟨rfl, rfl, rfl, rfl⟩
  · exact Ppu.readPort_keeps ..
  · unfold Bus.readCart
    split <;> exact ⟨rfl, rfl, rfl, rfl⟩

/-! ### Writes -/

theorem Bus.write_ram (b : Bus) {w : Word} {i : BitVec 11} (h : locate w = .ram i) (v : Byte) :
    b.write w v = b.setRam i v := by
  simp [Bus.write, h]

theorem Bus.write_stackAddr (b : Bus) (sp v : Byte) :
    b.write (stackAddr sp) v = b.setRam (stackIndex sp) v := b.write_ram (locate_stackAddr sp) v

@[simp] theorem Bus.answer_mem (b : Bus) (r : CartAnswer) : (b.answer r).mem = showBytes b.mem r.shows := rfl
@[simp] theorem Bus.answer_cart (b : Bus) (r : CartAnswer) : (b.answer r).cart = b.cart := rfl
@[simp] theorem Bus.answer_cartState (b : Bus) (r : CartAnswer) : (b.answer r).cartState = r.state := rfl
@[simp] theorem Bus.answer_cartLog (b : Bus) (r : CartAnswer) : (b.answer r).cartLog = b.cartLog := rfl
@[simp] theorem Bus.answer_ppu (b : Bus) (r : CartAnswer) : (b.answer r).ppu = b.ppu := rfl
@[simp] theorem Bus.answer_mapperIrq (b : Bus) (r : CartAnswer) :
    (b.answer r).mapperIrq = r.irq.getD b.mapperIrq := rfl
@[simp] theorem Bus.answer_dmaPage (b : Bus) (r : CartAnswer) : (b.answer r).dmaPage = b.dmaPage := rfl

/-- What a write of cartridge space does to the listed bytes: PRG RAM stores, the rule met puts its bytes in
view; and the PPU stays. -/
theorem Bus.writeCart_mem (b : Bus) (w : Word) (v : Byte) :
    (b.writeCart w v).mem =
      (match b.cart.ruleFor b.cartState w v with
       | some r => showBytes (if b.cart.isRam w then b.mem.set w.toNat v else b.mem) r.answer.shows
       | none => if b.cart.isRam w then b.mem.set w.toNat v else b.mem) ∧
    (b.writeCart w v).ppu = b.ppu ∧ (b.writeCart w v).cart = b.cart := by
  unfold Bus.writeCart
  cases b.cart.ruleFor b.cartState w v <;> exact ⟨rfl, rfl, rfl⟩

/-- A write of a device changes no listed byte. -/
theorem Bus.write_mem_device (b : Bus) {w : Word} (h : 0x2000 ≤ w.toNat) (h' : w.toNat < 0x4020) (v : Byte) :
    (b.write w v).mem = b.mem := by
  unfold Bus.write
  split
  · rename_i heq; exact absurd (eq_of_locate_ram heq).1 (by omega)
  all_goals first
    | rfl
    | (rename_i heq; exact absurd (eq_of_locate_cart heq).1 (by omega))

/-- No write changes the supplied cartridge. -/
@[simp] theorem Bus.write_cart (b : Bus) (w : Word) (v : Byte) : (b.write w v).cart = b.cart := by
  unfold Bus.write
  split <;> first | rfl | exact (Bus.writeCart_mem ..).2.2

/-- What plain memory reads after a write: everything a write does to it (20_memory.md R52, R56, R58). -/
theorem Bus.write_peek (b : Bus) (w a : Word) (v : Byte) :
    (b.write w v).peek a =
      if w.toNat < 0x2000 then if locate a = locate w then some v else b.peek a
      else if w.toNat < 0x4020 ∨ a.toNat < 0x4020 then b.peek a
      else b.viewAfter w v a := by
  by_cases hw : w.toNat < 0x2000
  · rw [Bus.write_ram b (locate_ram hw)]
    simp only [hw, if_true, locate_ram hw]
    unfold Bus.peek
    split
    · rename_i i heq
      rw [Bus.ramByte_setRam]
      simp only [heq, Location.ram.injEq]
      split <;> rfl
    · rename_i c heq
      obtain ⟨hc, rfl⟩ := eq_of_locate_cart heq
      simp only [heq, reduceCtorEq, if_false]
      rw [Bus.setRam, Memory.lookup_set_other]
      have := (w.setWidth 11).isLt
      omega
    · rename_i hr hc
      split
      · rename_i h; exact absurd h (hr _)
      · rfl
  · rw [if_neg hw]
    by_cases hd : w.toNat < 0x4020
    · simp only [hd, true_or, if_true]
      exact Bus.peek_congr (b.write_mem_device (by omega) hd v) a
    · have hm := (b.writeCart_mem w v).1
      rw [show b.write w v = b.writeCart w v by simp [Bus.write, locate_cart (not_lt.mp hd)]]
      by_cases ha : a.toNat < 0x4020
      · simp only [ha, or_true, if_true]
        have low : ∀ k, k < 0x4020 → (b.writeCart w v).mem.lookup k = b.mem.lookup k := by
          intro k hk
          have hs : (if b.cart.isRam w then b.mem.set w.toNat v else b.mem).lookup k = b.mem.lookup k := by
            split
            · exact Memory.lookup_set_other _ _ (by omega)
            · rfl
          rw [hm]
          split
          · rw [showBytes_lookup_below hk, hs]
          · exact hs
        unfold Bus.peek
        split
        · rename_i i heq
          rw [Bus.ramByte, Bus.ramByte, low _ (by have := i.isLt; omega)]
        · rename_i heq; exact absurd (eq_of_locate_cart heq).1 (by omega)
        · rfl
      · have hs : (if b.cart.isRam w then b.mem.set w.toNat v else b.mem).lookup a.toNat =
            if b.cart.isRam w ∧ a = w then some v else b.mem.lookup a.toNat := by
          by_cases hr : b.cart.isRam w
          · simp only [hr, if_true, true_and, Memory.lookup_set, BitVec.toNat_inj]
          · simp [hr]
        rw [if_neg (by omega)]
        simp only [Bus.peek, Bus.viewAfter, locate_cart (not_lt.mp ha), hm, ← hs]
        cases b.cart.ruleFor b.cartState w v with
        | some r => exact showBytes_lookup (not_lt.mp ha) _ _
        | none => rfl

/-! ### What no access moves -/

/-- What no access of the core moves: the supplied cartridge and the PPU's place in its frame. -/
structure Bus.Steady (b c : Bus) : Prop where
  cart : c.cart = b.cart
  line : c.ppu.line = b.ppu.line
  dot : c.ppu.dot = b.ppu.dot
  frame : c.ppu.frame = b.ppu.frame

theorem Bus.Steady.refl (b : Bus) : b.Steady b := ⟨rfl, rfl, rfl, rfl⟩

theorem Bus.Steady.trans {b c d : Bus} (h : b.Steady c) (h' : c.Steady d) : b.Steady d :=
  ⟨h'.cart.trans h.cart, h'.line.trans h.line, h'.dot.trans h.dot, h'.frame.trans h.frame⟩

theorem Bus.Steady.read (b : Bus) (w : Word) : b.Steady (b.read w).2 := by
  obtain ⟨-, h1, h2, h3⟩ := b.read_ppu_keeps w
  exact ⟨b.read_cart w, h1, h2, h3⟩

theorem Ppu.writePort_place (p : Ppu) (r : BitVec 3) (v : Byte) (k : Nat) :
    (p.writePort r v k).line = p.line ∧ (p.writePort r v k).dot = p.dot ∧
    (p.writePort r v k).frame = p.frame := by
  unfold Ppu.writePort Ppu.writeReg Ppu.writeOam Ppu.writeScroll Ppu.writeAddr
  split <;> first | exact ⟨rfl, rfl, rfl⟩ | (split <;> exact ⟨rfl, rfl, rfl⟩)

theorem Bus.Steady.write (b : Bus) (w : Word) (v : Byte) : b.Steady (b.write w v) := by
  refine ⟨b.write_cart w v, ?_, ?_, ?_⟩ <;> unfold Bus.write <;> split <;> first
    | rfl
    | exact congrArg _ (b.writeCart_mem _ v).2.1
    | exact (Ppu.writePort_place ..).1
    | exact (Ppu.writePort_place ..).2.1
    | exact (Ppu.writePort_place ..).2.2

/-! ### Keeping the bus in order -/

theorem Bus.Inv.of_read {b : Bus} (h : b.Inv) (w : Word) : (b.read w).2.Inv := by
  obtain ⟨h1, h2, h3, -⟩ := b.read_ppu_keeps w
  exact ⟨by rw [b.read_mem]; exact h.memCanonical, by rw [b.read_mem]; exact h.memKeys,
    by rw [h1]; exact h.oamCanonical, by rw [h1]; exact h.oamKeys, by rw [h2]; exact h.line,
    by rw [h3]; exact h.dot⟩

theorem Bus.Inv.of_setRam {b : Bus} (h : b.Inv) (i : BitVec 11) (v : Byte) : (b.setRam i v).Inv := by
  refine ⟨Memory.set_wf _ _ h.memCanonical, fun c hc => ?_, h.oamCanonical, h.oamKeys, h.line, h.dot⟩
  rcases Memory.mem_set hc with rfl | hc
  · have := i.isLt
    simp [memKey]
    omega
  · exact h.memKeys c hc

/-- A write of a PPU port keeps OAM canonical and within its 256 bytes, and leaves the position. -/
theorem Ppu.writePort_keeps {p : Ppu} (hw : p.oam.wf) (hk : ∀ c ∈ p.oam, c.1 < 256) (r : BitVec 3)
    (v : Byte) (k : Nat) :
    (p.writePort r v k).oam.wf ∧ (∀ c ∈ (p.writePort r v k).oam, c.1 < 256) ∧
    (p.writePort r v k).line = p.line ∧ (p.writePort r v k).dot = p.dot := by
  have h0 : ∀ q : Ppu, q.oam = p.oam → q.line = p.line → q.dot = p.dot →
      q.oam.wf ∧ (∀ c ∈ q.oam, c.1 < 256) ∧ q.line = p.line ∧ q.dot = p.dot :=
    fun q h1 h2 h3 => ⟨h1 ▸ hw, h1 ▸ hk, h2, h3⟩
  unfold Ppu.writePort Ppu.writeReg
  split
  · exact h0 _ rfl rfl rfl
  · exact h0 _ rfl rfl rfl
  · exact h0 _ rfl rfl rfl
  · exact h0 _ rfl rfl rfl
  · unfold Ppu.writeOam
    split
    · refine ⟨Memory.set_wf _ _ hw, fun c hc => ?_, rfl, rfl⟩
      rcases Memory.mem_set hc with rfl | hc
      · exact p.oamAddr.isLt
      · exact hk c hc
    · exact h0 _ rfl rfl rfl
  · unfold Ppu.writeScroll
    split <;> exact h0 _ rfl rfl rfl
  · unfold Ppu.writeAddr
    split <;> exact h0 _ rfl rfl rfl
  · exact h0 _ rfl rfl rfl

theorem Bus.Inv.of_answer {b : Bus} (h : b.Inv) (r : CartAnswer) : (b.answer r).Inv := by
  refine ⟨showBytes_wf _ h.memCanonical, fun c hc => ?_, h.oamCanonical, h.oamKeys, h.line, h.dot⟩
  rcases mem_showBytes hc with hc | hc
  · simp [memKey, hc]
  · exact h.memKeys c hc

theorem Bus.Inv.of_writeCart {b : Bus} (h : b.Inv) {w : Word} (hw : 0x4020 ≤ w.toNat) (v : Byte) :
    (b.writeCart w v).Inv := by
  have h0 : Bus.Inv { b with mem := if b.cart.isRam w then b.mem.set w.toNat v else b.mem,
                             cartLog := .write w v :: b.cartLog } := by
    refine ⟨?_, ?_, h.oamCanonical, h.oamKeys, h.line, h.dot⟩ <;> simp only <;> split
    · exact Memory.set_wf _ _ h.memCanonical
    · exact h.memCanonical
    · intro c hc
      rcases Memory.mem_set hc with rfl | hc
      · have := w.isLt
        simp [memKey]
        omega
      · exact h.memKeys c hc
    · exact h.memKeys
  unfold Bus.writeCart
  cases b.cart.ruleFor b.cartState w v with
  | some r => exact h0.of_answer r.answer
  | none => exact ⟨h0.memCanonical, h0.memKeys, h0.oamCanonical, h0.oamKeys, h0.line, h0.dot⟩

theorem Bus.Inv.of_write {b : Bus} (h : b.Inv) (w : Word) (v : Byte) : (b.write w v).Inv := by
  unfold Bus.write
  split
  · exact h.of_setRam _ v
  · obtain ⟨h1, h2, h3, h4⟩ := Ppu.writePort_keeps h.oamCanonical h.oamKeys ‹_› v b.draws
    exact ⟨h.memCanonical, h.memKeys, h1, h2, h3 ▸ h.line, h4 ▸ h.dot⟩
  all_goals first
    | exact h
    | exact ⟨h.memCanonical, h.memKeys, h.oamCanonical, h.oamKeys, h.line, h.dot⟩
    | (rename_i heq
       obtain ⟨hw, rfl⟩ := eq_of_locate_cart heq
       exact h.of_writeCart hw v)

/-- A dot keeps the bus in order. -/
theorem Bus.Inv.of_stepDot {b : Bus} (h : b.Inv) : b.stepDot.Inv := by
  have hp : b.stepDot.ppu.oam = b.ppu.oam ∧ b.stepDot.ppu.line < 262 ∧ b.stepDot.ppu.dot < 341 := by
    have hl := h.line
    have hd := h.dot
    simp only [Bus.stepDot, Ppu.stepDot, Ppu.vblankEvents, Ppu.renderEvents, Ppu.nextPosition]
    repeat' split
    all_goals simp_all
    all_goals omega
  exact ⟨h.memCanonical, h.memKeys, hp.1 ▸ h.oamCanonical, hp.1 ▸ h.oamKeys, hp.2.1, hp.2.2⟩

theorem Bus.Inv.of_resetCart {b : Bus} (h : b.Inv) : b.resetCart.Inv := by
  have h0 : Bus.Inv { b with cartLog := .reset :: b.cartLog } :=
    ⟨h.memCanonical, h.memKeys, h.oamCanonical, h.oamKeys, h.line, h.dot⟩
  unfold Bus.resetCart
  cases b.cart.onReset with
  | some r =>
    have := h0.of_answer r
    exact ⟨this.memCanonical, this.memKeys, this.oamCanonical, this.oamKeys, this.line, this.dot⟩
  | none => exact ⟨h.memCanonical, h.memKeys, h.oamCanonical, h.oamKeys, h.line, h.dot⟩

/-- A console reset keeps the bus in order. -/
theorem Bus.Inv.of_consoleReset {b : Bus} (h : b.Inv) : b.consoleReset.Inv :=
  ⟨h.of_resetCart.memCanonical, h.of_resetCart.memKeys, h.oamCanonical, h.oamKeys,
    by simp [Bus.consoleReset, Ppu.reset], by simp [Bus.consoleReset, Ppu.reset]⟩

/-- What a console reset does to the listed bytes: only what a supplied cartridge answers; the supplied
cartridge itself stays, and no interrupt is asserted. -/
theorem Bus.consoleReset_keeps (b : Bus) :
    b.consoleReset.mem = (match b.cart.onReset with
      | some r => showBytes b.mem r.shows
      | none => b.mem) ∧
    b.consoleReset.cart = b.cart ∧ b.consoleReset.mapperIrq = false := by
  unfold Bus.consoleReset Bus.resetCart
  cases b.cart.onReset <;> exact ⟨rfl, rfl, rfl⟩

/-- A console reset leaves internal RAM (70_reset_and_hazards.md R350). -/
theorem Bus.consoleReset_peek (b : Bus) {a : Word} (ha : a.toNat < 0x4020) : b.consoleReset.peek a = b.peek a := by
  have low : ∀ k, k < 0x4020 → b.consoleReset.mem.lookup k = b.mem.lookup k := by
    intro k hk
    rw [b.consoleReset_keeps.1]
    split
    · exact showBytes_lookup_below hk _ _
    · rfl
  unfold Bus.peek
  split
  · rename_i i heq
    rw [Bus.ramByte, Bus.ramByte, low _ (by have := i.isLt; omega)]
  · rename_i heq; exact absurd (eq_of_locate_cart heq).1 (by omega)
  · rfl

/-- The launch state's memory lists nothing and is canonical. -/
theorem reset_memory_wf : State.reset.bus.mem.wf ∧ State.reset.bus.ppu.oam.wf := by
  exact ⟨List.Pairwise.nil, List.Pairwise.nil⟩

end Sys2Proof.Machine
end

