-- ==== Sys2Proof/Laws/Decode.lean ====
section
/-! SUPPORT. The decoder by the number of operand bytes, and the bytes of an encoded instruction. -/
namespace Sys2Proof.Laws

/-- An instruction without operand bytes is its opcode byte. -/
theorem decode_zero {op : Byte} (h : operandCount op = 0) (rest : List Byte) :
    decode (op :: rest) = .ok (instrOf op 0 0, rest) := by
  simp [decode, h]

theorem decode_one {op : Byte} (h : operandCount op = 1) (b1 : Byte) (rest : List Byte) :
    decode (op :: b1 :: rest) = .ok (instrOf op b1 0, rest) := by
  simp [decode, h]

theorem decode_two {op : Byte} (h : operandCount op = 2) (b1 b2 : Byte) (rest : List Byte) :
    decode (op :: b1 :: b2 :: rest) = .ok (instrOf op b1 b2, rest) := by
  simp [decode, h]

/-- No opcode has more than two operand bytes (30_encoding.md R80). -/
theorem operandCount_le_two (op : Byte) : operandCount op ≤ 2 := by
  revert op; decide +kernel

/-- The opcode byte alone decides the constructor, so an instruction keeps its opcode whatever its operand
bytes are. -/
theorem opcode_instrOf (op b1 b2 : Byte) : (instrOf op b1 b2).opcode = op := by
  obtain ⟨n, rfl⟩ : ∃ n : Fin 256, op = BitVec.ofFin n := ⟨op.toFin, rfl⟩
  fin_cases n <;> rfl

/-- Every opcode of the map is a well-formed instruction (30_encoding.md R103). -/
theorem wellFormed_instrOf (op b1 b2 : Byte) : (instrOf op b1 b2).wellFormed = true := by
  obtain ⟨n, rfl⟩ : ∃ n : Fin 256, op = BitVec.ofFin n := ⟨op.toFin, rfl⟩
  fin_cases n <;> rfl

end Sys2Proof.Laws
end

