-- ==== Sys2Proof/Laws/State.lean ====
section
/-! SUPPORT. One lemma per field per named update of the state, true by rfl, so that no proof unfolds a record
update. -/
namespace Sys2Proof.Machine

variable (s : State)

/-! ### State.tick -/

@[simp] theorem State.tick_a (n : Nat) : (s.tick n).a = s.a := rfl
@[simp] theorem State.tick_x (n : Nat) : (s.tick n).x = s.x := rfl
@[simp] theorem State.tick_y (n : Nat) : (s.tick n).y = s.y := rfl
@[simp] theorem State.tick_sp (n : Nat) : (s.tick n).sp = s.sp := rfl
@[simp] theorem State.tick_pc (n : Nat) : (s.tick n).pc = s.pc := rfl
@[simp] theorem State.tick_p (n : Nat) : (s.tick n).p = s.p := rfl
@[simp] theorem State.tick_nmiLatch (n : Nat) : (s.tick n).nmiLatch = s.nmiLatch := rfl
@[simp] theorem State.tick_resetPending (n : Nat) : (s.tick n).resetPending = s.resetPending := rfl
@[simp] theorem State.tick_jammed (n : Nat) : (s.tick n).jammed = s.jammed := rfl
@[simp] theorem State.tick_stall (n : Nat) : (s.tick n).stall = s.stall := rfl
@[simp] theorem State.tick_cycleCount (n : Nat) : (s.tick n).cycleCount = s.cycleCount + n := rfl
@[simp] theorem State.tick_stepCycles (n : Nat) : (s.tick n).stepCycles = s.stepCycles + n := rfl
@[simp] theorem State.tick_dotBudget (n : Nat) : (s.tick n).dotBudget = s.dotBudget := rfl
@[simp] theorem State.tick_mark (n : Nat) : (s.tick n).mark = s.mark := rfl
@[simp] theorem State.tick_launch (n : Nat) : (s.tick n).launch = s.launch := rfl
@[simp] theorem State.tick_inputs (n : Nat) : (s.tick n).inputs = s.inputs := rfl
@[simp] theorem State.tick_bus (n : Nat) : (s.tick n).bus = s.bus := rfl

/-! ### State.advance -/

@[simp] theorem State.advance_a (n : Nat) : (s.advance n).a = s.a := rfl
@[simp] theorem State.advance_x (n : Nat) : (s.advance n).x = s.x := rfl
@[simp] theorem State.advance_y (n : Nat) : (s.advance n).y = s.y := rfl
@[simp] theorem State.advance_sp (n : Nat) : (s.advance n).sp = s.sp := rfl
@[simp] theorem State.advance_pc (n : Nat) : (s.advance n).pc = s.pc + BitVec.ofNat 16 n := rfl
@[simp] theorem State.advance_p (n : Nat) : (s.advance n).p = s.p := rfl
@[simp] theorem State.advance_nmiLatch (n : Nat) : (s.advance n).nmiLatch = s.nmiLatch := rfl
@[simp] theorem State.advance_resetPending (n : Nat) :
    (s.advance n).resetPending = s.resetPending := rfl
@[simp] theorem State.advance_jammed (n : Nat) : (s.advance n).jammed = s.jammed := rfl
@[simp] theorem State.advance_stall (n : Nat) : (s.advance n).stall = s.stall := rfl
@[simp] theorem State.advance_cycleCount (n : Nat) : (s.advance n).cycleCount = s.cycleCount := rfl
@[simp] theorem State.advance_stepCycles (n : Nat) : (s.advance n).stepCycles = s.stepCycles := rfl
@[simp] theorem State.advance_dotBudget (n : Nat) : (s.advance n).dotBudget = s.dotBudget := rfl
@[simp] theorem State.advance_mark (n : Nat) : (s.advance n).mark = s.mark := rfl
@[simp] theorem State.advance_launch (n : Nat) : (s.advance n).launch = s.launch := rfl
@[simp] theorem State.advance_inputs (n : Nat) : (s.advance n).inputs = s.inputs := rfl
@[simp] theorem State.advance_bus (n : Nat) : (s.advance n).bus = s.bus := rfl

/-! ### State.setA -/

@[simp] theorem State.setA_a (v : Byte) : (s.setA v).a = v := rfl
@[simp] theorem State.setA_x (v : Byte) : (s.setA v).x = s.x := rfl
@[simp] theorem State.setA_y (v : Byte) : (s.setA v).y = s.y := rfl
@[simp] theorem State.setA_sp (v : Byte) : (s.setA v).sp = s.sp := rfl
@[simp] theorem State.setA_pc (v : Byte) : (s.setA v).pc = s.pc := rfl
@[simp] theorem State.setA_p (v : Byte) : (s.setA v).p = s.p.setNZ v := rfl
@[simp] theorem State.setA_nmiLatch (v : Byte) : (s.setA v).nmiLatch = s.nmiLatch := rfl
@[simp] theorem State.setA_resetPending (v : Byte) : (s.setA v).resetPending = s.resetPending := rfl
@[simp] theorem State.setA_jammed (v : Byte) : (s.setA v).jammed = s.jammed := rfl
@[simp] theorem State.setA_stall (v : Byte) : (s.setA v).stall = s.stall := rfl
@[simp] theorem State.setA_cycleCount (v : Byte) : (s.setA v).cycleCount = s.cycleCount := rfl
@[simp] theorem State.setA_stepCycles (v : Byte) : (s.setA v).stepCycles = s.stepCycles := rfl
@[simp] theorem State.setA_dotBudget (v : Byte) : (s.setA v).dotBudget = s.dotBudget := rfl
@[simp] theorem State.setA_mark (v : Byte) : (s.setA v).mark = s.mark := rfl
@[simp] theorem State.setA_launch (v : Byte) : (s.setA v).launch = s.launch := rfl
@[simp] theorem State.setA_inputs (v : Byte) : (s.setA v).inputs = s.inputs := rfl
@[simp] theorem State.setA_bus (v : Byte) : (s.setA v).bus = s.bus := rfl

/-! ### State.setX -/

@[simp] theorem State.setX_a (v : Byte) : (s.setX v).a = s.a := rfl
@[simp] theorem State.setX_x (v : Byte) : (s.setX v).x = v := rfl
@[simp] theorem State.setX_y (v : Byte) : (s.setX v).y = s.y := rfl
@[simp] theorem State.setX_sp (v : Byte) : (s.setX v).sp = s.sp := rfl
@[simp] theorem State.setX_pc (v : Byte) : (s.setX v).pc = s.pc := rfl
@[simp] theorem State.setX_p (v : Byte) : (s.setX v).p = s.p.setNZ v := rfl
@[simp] theorem State.setX_nmiLatch (v : Byte) : (s.setX v).nmiLatch = s.nmiLatch := rfl
@[simp] theorem State.setX_resetPending (v : Byte) : (s.setX v).resetPending = s.resetPending := rfl
@[simp] theorem State.setX_jammed (v : Byte) : (s.setX v).jammed = s.jammed := rfl
@[simp] theorem State.setX_stall (v : Byte) : (s.setX v).stall = s.stall := rfl
@[simp] theorem State.setX_cycleCount (v : Byte) : (s.setX v).cycleCount = s.cycleCount := rfl
@[simp] theorem State.setX_stepCycles (v : Byte) : (s.setX v).stepCycles = s.stepCycles := rfl
@[simp] theorem State.setX_dotBudget (v : Byte) : (s.setX v).dotBudget = s.dotBudget := rfl
@[simp] theorem State.setX_mark (v : Byte) : (s.setX v).mark = s.mark := rfl
@[simp] theorem State.setX_launch (v : Byte) : (s.setX v).launch = s.launch := rfl
@[simp] theorem State.setX_inputs (v : Byte) : (s.setX v).inputs = s.inputs := rfl
@[simp] theorem State.setX_bus (v : Byte) : (s.setX v).bus = s.bus := rfl

/-! ### State.setY -/

@[simp] theorem State.setY_a (v : Byte) : (s.setY v).a = s.a := rfl
@[simp] theorem State.setY_x (v : Byte) : (s.setY v).x = s.x := rfl
@[simp] theorem State.setY_y (v : Byte) : (s.setY v).y = v := rfl
@[simp] theorem State.setY_sp (v : Byte) : (s.setY v).sp = s.sp := rfl
@[simp] theorem State.setY_pc (v : Byte) : (s.setY v).pc = s.pc := rfl
@[simp] theorem State.setY_p (v : Byte) : (s.setY v).p = s.p.setNZ v := rfl
@[simp] theorem State.setY_nmiLatch (v : Byte) : (s.setY v).nmiLatch = s.nmiLatch := rfl
@[simp] theorem State.setY_resetPending (v : Byte) : (s.setY v).resetPending = s.resetPending := rfl
@[simp] theorem State.setY_jammed (v : Byte) : (s.setY v).jammed = s.jammed := rfl
@[simp] theorem State.setY_stall (v : Byte) : (s.setY v).stall = s.stall := rfl
@[simp] theorem State.setY_cycleCount (v : Byte) : (s.setY v).cycleCount = s.cycleCount := rfl
@[simp] theorem State.setY_stepCycles (v : Byte) : (s.setY v).stepCycles = s.stepCycles := rfl
@[simp] theorem State.setY_dotBudget (v : Byte) : (s.setY v).dotBudget = s.dotBudget := rfl
@[simp] theorem State.setY_mark (v : Byte) : (s.setY v).mark = s.mark := rfl
@[simp] theorem State.setY_launch (v : Byte) : (s.setY v).launch = s.launch := rfl
@[simp] theorem State.setY_inputs (v : Byte) : (s.setY v).inputs = s.inputs := rfl
@[simp] theorem State.setY_bus (v : Byte) : (s.setY v).bus = s.bus := rfl

/-! ### State.setP -/

@[simp] theorem State.setP_a (q : Status) : (s.setP q).a = s.a := rfl
@[simp] theorem State.setP_x (q : Status) : (s.setP q).x = s.x := rfl
@[simp] theorem State.setP_y (q : Status) : (s.setP q).y = s.y := rfl
@[simp] theorem State.setP_sp (q : Status) : (s.setP q).sp = s.sp := rfl
@[simp] theorem State.setP_pc (q : Status) : (s.setP q).pc = s.pc := rfl
@[simp] theorem State.setP_p (q : Status) : (s.setP q).p = q := rfl
@[simp] theorem State.setP_nmiLatch (q : Status) : (s.setP q).nmiLatch = s.nmiLatch := rfl
@[simp] theorem State.setP_resetPending (q : Status) :
    (s.setP q).resetPending = s.resetPending := rfl
@[simp] theorem State.setP_jammed (q : Status) : (s.setP q).jammed = s.jammed := rfl
@[simp] theorem State.setP_stall (q : Status) : (s.setP q).stall = s.stall := rfl
@[simp] theorem State.setP_cycleCount (q : Status) : (s.setP q).cycleCount = s.cycleCount := rfl
@[simp] theorem State.setP_stepCycles (q : Status) : (s.setP q).stepCycles = s.stepCycles := rfl
@[simp] theorem State.setP_dotBudget (q : Status) : (s.setP q).dotBudget = s.dotBudget := rfl
@[simp] theorem State.setP_mark (q : Status) : (s.setP q).mark = s.mark := rfl
@[simp] theorem State.setP_launch (q : Status) : (s.setP q).launch = s.launch := rfl
@[simp] theorem State.setP_inputs (q : Status) : (s.setP q).inputs = s.inputs := rfl
@[simp] theorem State.setP_bus (q : Status) : (s.setP q).bus = s.bus := rfl

/-! ### State.addToA -/

@[simp] theorem State.addToA_a (m : Byte) (c : Bool) : (s.addToA m c).a = addResult s.a m c := rfl
@[simp] theorem State.addToA_x (m : Byte) (c : Bool) : (s.addToA m c).x = s.x := rfl
@[simp] theorem State.addToA_y (m : Byte) (c : Bool) : (s.addToA m c).y = s.y := rfl
@[simp] theorem State.addToA_sp (m : Byte) (c : Bool) : (s.addToA m c).sp = s.sp := rfl
@[simp] theorem State.addToA_pc (m : Byte) (c : Bool) : (s.addToA m c).pc = s.pc := rfl
@[simp] theorem State.addToA_p (m : Byte) (c : Bool) :
    (s.addToA m c).p = s.p.afterAdd s.a m c := rfl
@[simp] theorem State.addToA_nmiLatch (m : Byte) (c : Bool) :
    (s.addToA m c).nmiLatch = s.nmiLatch := rfl
@[simp] theorem State.addToA_resetPending (m : Byte) (c : Bool) :
    (s.addToA m c).resetPending = s.resetPending := rfl
@[simp] theorem State.addToA_jammed (m : Byte) (c : Bool) : (s.addToA m c).jammed = s.jammed := rfl
@[simp] theorem State.addToA_stall (m : Byte) (c : Bool) : (s.addToA m c).stall = s.stall := rfl
@[simp] theorem State.addToA_cycleCount (m : Byte) (c : Bool) :
    (s.addToA m c).cycleCount = s.cycleCount := rfl
@[simp] theorem State.addToA_stepCycles (m : Byte) (c : Bool) :
    (s.addToA m c).stepCycles = s.stepCycles := rfl
@[simp] theorem State.addToA_dotBudget (m : Byte) (c : Bool) :
    (s.addToA m c).dotBudget = s.dotBudget := rfl
@[simp] theorem State.addToA_mark (m : Byte) (c : Bool) : (s.addToA m c).mark = s.mark := rfl
@[simp] theorem State.addToA_launch (m : Byte) (c : Bool) : (s.addToA m c).launch = s.launch := rfl
@[simp] theorem State.addToA_inputs (m : Byte) (c : Bool) : (s.addToA m c).inputs = s.inputs := rfl
@[simp] theorem State.addToA_bus (m : Byte) (c : Bool) : (s.addToA m c).bus = s.bus := rfl

/-! ### State.push -/

@[simp] theorem State.push_a (v : Byte) : (s.push v).a = s.a := rfl
@[simp] theorem State.push_x (v : Byte) : (s.push v).x = s.x := rfl
@[simp] theorem State.push_y (v : Byte) : (s.push v).y = s.y := rfl
@[simp] theorem State.push_sp (v : Byte) : (s.push v).sp = s.sp - 1 := rfl
@[simp] theorem State.push_pc (v : Byte) : (s.push v).pc = s.pc := rfl
@[simp] theorem State.push_p (v : Byte) : (s.push v).p = s.p := rfl
@[simp] theorem State.push_nmiLatch (v : Byte) : (s.push v).nmiLatch = s.nmiLatch := rfl
@[simp] theorem State.push_resetPending (v : Byte) : (s.push v).resetPending = s.resetPending := rfl
@[simp] theorem State.push_jammed (v : Byte) : (s.push v).jammed = s.jammed := rfl
@[simp] theorem State.push_stall (v : Byte) : (s.push v).stall = s.stall := rfl
@[simp] theorem State.push_cycleCount (v : Byte) : (s.push v).cycleCount = s.cycleCount := rfl
@[simp] theorem State.push_stepCycles (v : Byte) : (s.push v).stepCycles = s.stepCycles := rfl
@[simp] theorem State.push_dotBudget (v : Byte) : (s.push v).dotBudget = s.dotBudget := rfl
@[simp] theorem State.push_mark (v : Byte) : (s.push v).mark = s.mark := rfl
@[simp] theorem State.push_launch (v : Byte) : (s.push v).launch = s.launch := rfl
@[simp] theorem State.push_inputs (v : Byte) : (s.push v).inputs = s.inputs := rfl
@[simp] theorem State.push_bus (v : Byte) : (s.push v).bus = s.bus.setRam (stackIndex s.sp) v := rfl

/-! ### State.pull -/

@[simp] theorem State.pull_a : (s.pull.2).a = s.a := rfl
@[simp] theorem State.pull_x : (s.pull.2).x = s.x := rfl
@[simp] theorem State.pull_y : (s.pull.2).y = s.y := rfl
@[simp] theorem State.pull_sp : (s.pull.2).sp = s.sp + 1 := rfl
@[simp] theorem State.pull_pc : (s.pull.2).pc = s.pc := rfl
@[simp] theorem State.pull_p : (s.pull.2).p = s.p := rfl
@[simp] theorem State.pull_nmiLatch : (s.pull.2).nmiLatch = s.nmiLatch := rfl
@[simp] theorem State.pull_resetPending : (s.pull.2).resetPending = s.resetPending := rfl
@[simp] theorem State.pull_jammed : (s.pull.2).jammed = s.jammed := rfl
@[simp] theorem State.pull_stall : (s.pull.2).stall = s.stall := rfl
@[simp] theorem State.pull_cycleCount : (s.pull.2).cycleCount = s.cycleCount := rfl
@[simp] theorem State.pull_stepCycles : (s.pull.2).stepCycles = s.stepCycles := rfl
@[simp] theorem State.pull_dotBudget : (s.pull.2).dotBudget = s.dotBudget := rfl
@[simp] theorem State.pull_mark : (s.pull.2).mark = s.mark := rfl
@[simp] theorem State.pull_launch : (s.pull.2).launch = s.launch := rfl
@[simp] theorem State.pull_inputs : (s.pull.2).inputs = s.inputs := rfl
@[simp] theorem State.pull_bus : (s.pull.2).bus = s.bus := rfl

/-! ### State.read -/

@[simp] theorem State.read_a (w : Word) : ((s.read w).2).a = s.a := rfl
@[simp] theorem State.read_x (w : Word) : ((s.read w).2).x = s.x := rfl
@[simp] theorem State.read_y (w : Word) : ((s.read w).2).y = s.y := rfl
@[simp] theorem State.read_sp (w : Word) : ((s.read w).2).sp = s.sp := rfl
@[simp] theorem State.read_pc (w : Word) : ((s.read w).2).pc = s.pc := rfl
@[simp] theorem State.read_p (w : Word) : ((s.read w).2).p = s.p := rfl
@[simp] theorem State.read_nmiLatch (w : Word) : ((s.read w).2).nmiLatch = s.nmiLatch := rfl
@[simp] theorem State.read_resetPending (w : Word) :
    ((s.read w).2).resetPending = s.resetPending := rfl
@[simp] theorem State.read_jammed (w : Word) : ((s.read w).2).jammed = s.jammed := rfl
@[simp] theorem State.read_stall (w : Word) : ((s.read w).2).stall = s.stall := rfl
@[simp] theorem State.read_cycleCount (w : Word) : ((s.read w).2).cycleCount = s.cycleCount := rfl
@[simp] theorem State.read_stepCycles (w : Word) : ((s.read w).2).stepCycles = s.stepCycles := rfl
@[simp] theorem State.read_dotBudget (w : Word) : ((s.read w).2).dotBudget = s.dotBudget := rfl
@[simp] theorem State.read_mark (w : Word) : ((s.read w).2).mark = s.mark := rfl
@[simp] theorem State.read_launch (w : Word) : ((s.read w).2).launch = s.launch := rfl
@[simp] theorem State.read_inputs (w : Word) : ((s.read w).2).inputs = s.inputs := rfl
@[simp] theorem State.read_bus (w : Word) : ((s.read w).2).bus = (s.bus.read w).2 := rfl

/-! ### State.write -/

@[simp] theorem State.write_a (w : Word) (v : Byte) : (s.write w v).a = s.a := rfl
@[simp] theorem State.write_x (w : Word) (v : Byte) : (s.write w v).x = s.x := rfl
@[simp] theorem State.write_y (w : Word) (v : Byte) : (s.write w v).y = s.y := rfl
@[simp] theorem State.write_sp (w : Word) (v : Byte) : (s.write w v).sp = s.sp := rfl
@[simp] theorem State.write_pc (w : Word) (v : Byte) : (s.write w v).pc = s.pc := rfl
@[simp] theorem State.write_p (w : Word) (v : Byte) : (s.write w v).p = s.p := rfl
@[simp] theorem State.write_nmiLatch (w : Word) (v : Byte) :
    (s.write w v).nmiLatch = s.nmiLatch := rfl
@[simp] theorem State.write_resetPending (w : Word) (v : Byte) :
    (s.write w v).resetPending = s.resetPending := rfl
@[simp] theorem State.write_jammed (w : Word) (v : Byte) : (s.write w v).jammed = s.jammed := rfl
@[simp] theorem State.write_stall (w : Word) (v : Byte) : (s.write w v).stall = s.stall := rfl
@[simp] theorem State.write_cycleCount (w : Word) (v : Byte) :
    (s.write w v).cycleCount = s.cycleCount := rfl
@[simp] theorem State.write_stepCycles (w : Word) (v : Byte) :
    (s.write w v).stepCycles = s.stepCycles := rfl
@[simp] theorem State.write_dotBudget (w : Word) (v : Byte) :
    (s.write w v).dotBudget = s.dotBudget := rfl
@[simp] theorem State.write_mark (w : Word) (v : Byte) : (s.write w v).mark = s.mark := rfl
@[simp] theorem State.write_launch (w : Word) (v : Byte) : (s.write w v).launch = s.launch := rfl
@[simp] theorem State.write_inputs (w : Word) (v : Byte) : (s.write w v).inputs = s.inputs := rfl
@[simp] theorem State.write_bus (w : Word) (v : Byte) : (s.write w v).bus = s.bus.write w v := rfl

/-! ### State.readWord -/

@[simp] theorem State.readWord_a (w : Word) : ((s.readWord w).2).a = s.a := rfl
@[simp] theorem State.readWord_x (w : Word) : ((s.readWord w).2).x = s.x := rfl
@[simp] theorem State.readWord_y (w : Word) : ((s.readWord w).2).y = s.y := rfl
@[simp] theorem State.readWord_sp (w : Word) : ((s.readWord w).2).sp = s.sp := rfl
@[simp] theorem State.readWord_pc (w : Word) : ((s.readWord w).2).pc = s.pc := rfl
@[simp] theorem State.readWord_p (w : Word) : ((s.readWord w).2).p = s.p := rfl
@[simp] theorem State.readWord_nmiLatch (w : Word) : ((s.readWord w).2).nmiLatch = s.nmiLatch := rfl
@[simp] theorem State.readWord_resetPending (w : Word) :
    ((s.readWord w).2).resetPending = s.resetPending := rfl
@[simp] theorem State.readWord_jammed (w : Word) : ((s.readWord w).2).jammed = s.jammed := rfl
@[simp] theorem State.readWord_stall (w : Word) : ((s.readWord w).2).stall = s.stall := rfl
@[simp] theorem State.readWord_cycleCount (w : Word) :
    ((s.readWord w).2).cycleCount = s.cycleCount := rfl
@[simp] theorem State.readWord_stepCycles (w : Word) :
    ((s.readWord w).2).stepCycles = s.stepCycles := rfl
@[simp] theorem State.readWord_dotBudget (w : Word) :
    ((s.readWord w).2).dotBudget = s.dotBudget := rfl
@[simp] theorem State.readWord_mark (w : Word) : ((s.readWord w).2).mark = s.mark := rfl
@[simp] theorem State.readWord_launch (w : Word) : ((s.readWord w).2).launch = s.launch := rfl
@[simp] theorem State.readWord_inputs (w : Word) : ((s.readWord w).2).inputs = s.inputs := rfl
@[simp] theorem State.readWord_bus (w : Word) :
    ((s.readWord w).2).bus = ((s.bus.read w).2.read (w + 1)).2 := rfl

/-! ### State.pushWord -/

@[simp] theorem State.pushWord_a (w : Word) : (s.pushWord w).a = s.a := rfl
@[simp] theorem State.pushWord_x (w : Word) : (s.pushWord w).x = s.x := rfl
@[simp] theorem State.pushWord_y (w : Word) : (s.pushWord w).y = s.y := rfl
@[simp] theorem State.pushWord_sp (w : Word) : (s.pushWord w).sp = s.sp - 1 - 1 := rfl
@[simp] theorem State.pushWord_pc (w : Word) : (s.pushWord w).pc = s.pc := rfl
@[simp] theorem State.pushWord_p (w : Word) : (s.pushWord w).p = s.p := rfl
@[simp] theorem State.pushWord_nmiLatch (w : Word) : (s.pushWord w).nmiLatch = s.nmiLatch := rfl
@[simp] theorem State.pushWord_resetPending (w : Word) :
    (s.pushWord w).resetPending = s.resetPending := rfl
@[simp] theorem State.pushWord_jammed (w : Word) : (s.pushWord w).jammed = s.jammed := rfl
@[simp] theorem State.pushWord_stall (w : Word) : (s.pushWord w).stall = s.stall := rfl
@[simp] theorem State.pushWord_cycleCount (w : Word) :
    (s.pushWord w).cycleCount = s.cycleCount := rfl
@[simp] theorem State.pushWord_stepCycles (w : Word) :
    (s.pushWord w).stepCycles = s.stepCycles := rfl
@[simp] theorem State.pushWord_dotBudget (w : Word) : (s.pushWord w).dotBudget = s.dotBudget := rfl
@[simp] theorem State.pushWord_mark (w : Word) : (s.pushWord w).mark = s.mark := rfl
@[simp] theorem State.pushWord_launch (w : Word) : (s.pushWord w).launch = s.launch := rfl
@[simp] theorem State.pushWord_inputs (w : Word) : (s.pushWord w).inputs = s.inputs := rfl
@[simp] theorem State.pushWord_bus (w : Word) :
    (s.pushWord w).bus = (s.bus.setRam (stackIndex s.sp) (hiByte w)).setRam (stackIndex (s.sp - 1)) (loByte w) := rfl

/-! ### State.pullWord -/

@[simp] theorem State.pullWord_a : (s.pullWord.2).a = s.a := rfl
@[simp] theorem State.pullWord_x : (s.pullWord.2).x = s.x := rfl
@[simp] theorem State.pullWord_y : (s.pullWord.2).y = s.y := rfl
@[simp] theorem State.pullWord_sp : (s.pullWord.2).sp = s.sp + 1 + 1 := rfl
@[simp] theorem State.pullWord_pc : (s.pullWord.2).pc = s.pc := rfl
@[simp] theorem State.pullWord_p : (s.pullWord.2).p = s.p := rfl
@[simp] theorem State.pullWord_nmiLatch : (s.pullWord.2).nmiLatch = s.nmiLatch := rfl
@[simp] theorem State.pullWord_resetPending : (s.pullWord.2).resetPending = s.resetPending := rfl
@[simp] theorem State.pullWord_jammed : (s.pullWord.2).jammed = s.jammed := rfl
@[simp] theorem State.pullWord_stall : (s.pullWord.2).stall = s.stall := rfl
@[simp] theorem State.pullWord_cycleCount : (s.pullWord.2).cycleCount = s.cycleCount := rfl
@[simp] theorem State.pullWord_stepCycles : (s.pullWord.2).stepCycles = s.stepCycles := rfl
@[simp] theorem State.pullWord_dotBudget : (s.pullWord.2).dotBudget = s.dotBudget := rfl
@[simp] theorem State.pullWord_mark : (s.pullWord.2).mark = s.mark := rfl
@[simp] theorem State.pullWord_launch : (s.pullWord.2).launch = s.launch := rfl
@[simp] theorem State.pullWord_inputs : (s.pullWord.2).inputs = s.inputs := rfl
@[simp] theorem State.pullWord_bus : (s.pullWord.2).bus = s.bus := rfl

@[simp] theorem State.read_fst (w : Word) : (s.read w).1 = (s.bus.read w).1 := rfl
@[simp] theorem State.pull_fst : s.pull.1 = s.bus.ramByte (stackIndex (s.sp + 1)) := rfl
@[simp] theorem State.pullWord_fst : s.pullWord.1 =
    mkWord (s.bus.ramByte (stackIndex (s.sp + 1 + 1))) (s.bus.ramByte (stackIndex (s.sp + 1))) := rfl
@[simp] theorem State.readWord_fst (w : Word) : (s.readWord w).1 =
    mkWord ((s.bus.read w).2.read (w + 1)).1 (s.bus.read w).1 := rfl

end Sys2Proof.Machine
end

