-- ==== Sys2Proof/Laws/Ops.lean ====
section
/-! SUPPORT. What the named operations of Machine/Ops.lean do, in terms of MemRead and MemWrite: stack pushes
and pulls, interrupt entry, memory that stays and memory that changes, and the invariant they keep. -/
namespace Sys2Proof.Machine

open Sys2Proof.Laws

/-! ### Memory frames -/

theorem SameMemory.of_mem {s t : State} (h : t.bus.mem = s.bus.mem) : SameMemory s t :=
  fun a => Bus.peek_congr h a

theorem SameMemory.trans {s t u : State} (h : SameMemory s t) (h' : SameMemory t u) : SameMemory s u :=
  fun a => (h' a).trans (h a)

/-- One write, onto a bus that holds the plain memory and the cartridge of `s`, is a store. -/
theorem Stored.of_write {s t : State} {b : Bus} (w : Word) (v : Byte) (hm : b.mem = s.bus.mem)
    (hc : b.cart = s.bus.cart) (hs : b.cartState = s.bus.cartState) (ht : t.bus = b.write w v) :
    Stored w v s t := by
  have hp : ∀ a, b.peek a = s.peek a := fun a => Bus.peek_congr hm a
  have hv : ∀ a, b.viewAfter w v a = s.bus.viewAfter w v a := fun a => by
    simp only [Bus.viewAfter, hc, hs, hp]; rfl
  have key : ∀ a, t.peek a = (b.write w v).peek a := fun a => by rw [State.peek, ht]
  refine ⟨fun h => ?_, fun h a ha => ?_, fun h h' a => ?_, fun h a ha => ?_, fun h a ha => ?_⟩ <;>
    rw [key, Bus.write_peek]
  · simp [h]
  · simp [h, ha, hp]
  · rw [if_neg (by omega), if_pos (.inl h'), hp]
  · rw [if_neg (by omega), if_pos (.inr ha), hp]
  · rw [if_neg (by omega), if_neg (by omega), hv]

/-- A read of plain memory returns its byte and changes nothing. -/
theorem State.read_of_peek {s : State} {w : Word} {v : Byte} (h : s.peek w = some v) : s.read w = (v, s) := by
  rw [State.read, Bus.read_of_peek h]

/-! ### The stack -/

/-- Push(v) is MemWrite at `$0100 + SP`, then SP - 1 (40_execution_cycle.md R124). -/
theorem State.push_eq (s : State) (v : Byte) :
    s.push v = { s.write (stackAddr s.sp) v with sp := s.sp - 1 } := by
  simp [State.push, State.write, Bus.write_stackAddr]

@[simp] theorem State.read_stackAddr (s : State) (sp : Byte) :
    s.read (stackAddr sp) = (s.bus.ramByte (stackIndex sp), s) := by
  simp [State.read]

/-- Pull() is SP + 1, then MemRead at `$0100 + SP` (40_execution_cycle.md R125). -/
theorem State.pull_eq (s : State) :
    s.pull = ((s.read (stackAddr (s.sp + 1))).1, { s with sp := s.sp + 1 }) := by
  simp [State.pull]

theorem stackAddr_inj {a b : Byte} : locate (stackAddr a) = locate (stackAddr b) ↔ a = b := by
  rw [locate_stackAddr, locate_stackAddr, Location.ram.injEq, ← BitVec.toNat_inj, stackIndex_toNat,
    stackIndex_toNat, ← BitVec.toNat_inj (x := a)]
  omega

theorem Bus.peek_stackAddr (b : Bus) (sp : Byte) :
    b.peek (stackAddr sp) = some (b.ramByte (stackIndex sp)) := by
  simp [Bus.peek, locate_stackAddr]

/-! ### Interrupt entry -/

/-- Taking an interrupt is the entry the claims speak of (60_exceptions.md R305). -/
theorem State.takeInterrupt_eq (s : State) (ret : Word) (st : Byte) (vec : Word) :
    (s.takeInterrupt ret st vec).tick 7 = s.entered ret st vec := by
  have h : s.sp - 1 - 1 = s.sp - 2 := by bv_omega
  have h' : s.sp - 2 - 1 = s.sp - 3 := by bv_omega
  simp only [State.takeInterrupt, State.pushWord, State.push_eq, State.write, State.readWord, State.read,
    State.tick, State.entered, Bus.pushThree, h, h']

/-- The three bytes an entry pushes, and nothing else in memory (60_exceptions.md R305). -/
theorem State.entered_memory (s : State) (ret : Word) (st : Byte) (vec : Word) :
    (s.entered ret st vec).peek (stackAddr s.sp) = some (hiByte ret) ∧
    (s.entered ret st vec).peek (stackAddr (s.sp - 1)) = some (loByte ret) ∧
    (s.entered ret st vec).peek (stackAddr (s.sp - 2)) = some st ∧
    SameMemoryButThreePushes s.sp s (s.entered ret st vec) := by
  have h1 : s.sp ≠ s.sp - 1 := by bv_omega
  have h2 : s.sp ≠ s.sp - 2 := by bv_omega
  have h3 : s.sp - 1 ≠ s.sp - 2 := by bv_omega
  have lt : ∀ sp : Byte, (stackAddr sp).toNat < 0x2000 := fun sp => by simp; omega
  have hp : ∀ a, (s.entered ret st vec).peek a = (s.bus.pushThree s.sp (hiByte ret) (loByte ret) st).peek a :=
    fun a => by simp [State.peek, State.entered]
  simp only [hp, Bus.pushThree, Bus.write_peek, lt, true_and, stackAddr_inj, h1, h2, h3, if_true,
    if_false, SameMemoryButThreePushes]
  intro a e1 e2 e3
  rw [if_neg e3, if_neg e2, if_neg e1]; rfl

theorem State.enterNmi_eq (s : State) :
    s.enterNmi = { s.entered s.pc s.p.pushedByInterrupt nmiVector with nmiLatch := false } := by
  rw [State.enterNmi, State.takeInterrupt_eq]; rfl

theorem State.enterIrq_eq (s : State) : s.enterIrq = s.entered s.pc s.p.pushedByInterrupt irqVector :=
  s.takeInterrupt_eq ..

/-! ### The invariant -/

/-- An operation that keeps the bus in order and leaves U, the budget and the stall keeps the invariant. -/
theorem State.Inv.of_eq {s t : State} (h : s.Inv) (hb : t.bus.Inv) (hu : t.p.u = s.p.u)
    (hd : t.dotBudget = s.dotBudget) (hs : t.stall = s.stall) : t.Inv :=
  ⟨hb, hu ▸ h.unused, hd ▸ h.budget, hs ▸ h.stall⟩

theorem State.Inv.of_read {s : State} (h : s.Inv) (w : Word) : (s.read w).2.Inv :=
  h.of_eq (h.bus.of_read w) rfl rfl rfl

theorem State.Inv.of_write {s : State} (h : s.Inv) (w : Word) (v : Byte) : (s.write w v).Inv :=
  h.of_eq (h.bus.of_write w v) rfl rfl rfl

theorem Bus.Inv.of_pushThree {b : Bus} (h : b.Inv) (sp v1 v2 v3 : Byte) : (b.pushThree sp v1 v2 v3).Inv :=
  ((h.of_write _ _).of_write _ _).of_write _ _

theorem State.Inv.of_entered {s : State} (h : s.Inv) (ret : Word) (st : Byte) (vec : Word) :
    (s.entered ret st vec).Inv :=
  h.of_eq (((h.bus.of_pushThree _ _ _ _).of_read _).of_read _) rfl rfl rfl

theorem State.Inv.of_serviceInterrupt {s : State} (h : s.Inv) : s.serviceInterrupt.Inv := by
  unfold State.serviceInterrupt
  split
  · rw [State.enterNmi_eq]
    have := h.of_entered s.pc s.p.pushedByInterrupt nmiVector
    exact this.of_eq this.bus rfl rfl rfl
  · split
    · rw [State.enterIrq_eq]; exact h.of_entered ..
    · exact h

end Sys2Proof.Machine
end

