-- ==== Sys2Proof/Laws/Exec.lean ====
section
/-! SUPPORT. What each kind of instruction does, once: the shared operations of Machine/Operands.lean as one
equation each, and which of them every mnemonic is. -/
namespace Sys2Proof.Machine

open Sys2Proof.Laws

/-! ### Operands -/

/-- Fetching an operand changes nothing but what its one read does to the bus. -/
theorem fetch_state (o : Operand) (s : State) : (o.fetch s).2 = { s with bus := (o.fetch s).2.bus } := by
  cases o <;> rfl

/-- Fetching an operand leaves every byte of plain memory. -/
@[simp] theorem fetch_mem (o : Operand) (s : State) : (o.fetch s).2.bus.mem = s.bus.mem := by
  cases o <;> simp [Operand.fetch]

theorem fetch_bus_inv {s : State} (h : s.bus.Inv) (o : Operand) : (o.fetch s).2.bus.Inv := by
  cases o <;> first | exact h | exact h.of_read _

theorem fetch_keeps (o : Operand) (s : State) :
    (o.fetch s).2.bus.mapperIrq = s.bus.mapperIrq ∧ (o.fetch s).2.bus.dmaPage = s.bus.dmaPage ∧
    (o.fetch s).2.bus.cart = s.bus.cart ∧ (o.fetch s).2.bus.cartState = s.bus.cartState := by
  cases o <;> simp [Operand.fetch]

/-- The pointer of a zero-page mode, by the two reads the spec writes, neither of which has a side effect
(30_encoding.md R97, R98). -/
theorem zeroPageWord_eq (s : State) (b : Byte) :
    s.zeroPageWord b =
      mkWord ((s.read (mkWord 0 b)).2.read (mkWord 0 (b + 1))).1 (s.read (mkWord 0 b)).1 := by
  simp only [State.zeroPageWord, State.zeroPage, State.read, Bus.read_ram _ (locate_mkWord_zero _)]

@[simp] theorem read_zeroPage (s : State) (b : Byte) : (s.read (mkWord 0 b)).2 = s := by
  simp only [State.read, Bus.read_ram _ (locate_mkWord_zero _)]

/-! ### Kinds of instruction -/

/-- Every instruction but BRK moves PC past its mode's bytes. -/
theorem length_eq {i : Instr} (h : i.mnemonic ≠ .brk) : i.operand.length = i.length := by
  cases i <;> first | rfl | exact absurd rfl h

/-- A read-kind instruction of one base count: what the effect makes of `M` in the state past it. -/
theorem readOp_eq {i : Instr} (h : i.mnemonic ≠ .brk) (effect : Byte → State → State) (s : State) :
    readOp i.operand (readCycles i.operand.mode) effect s =
      .next ((effect (i.operand.fetch s).1
        { s with pc := s.pc + BitVec.ofNat 16 i.length, bus := (i.operand.fetch s).2.bus }).tick
        (i.readTime s)) := by
  rw [readOp, fetch_state, length_eq h]
  simp only [Instr.readTime, Operand.penalty, State.advance, Bool.toNat]
  cases i.operand.crossed s <;> rfl

/-- An RMW-kind instruction. -/
theorem rmwOp_eq {i : Instr} (h : i.mnemonic ≠ .brk) (modify : Byte → State → Byte × State) (second : Byte → State → State)
    (s : State) :
    rmwOp i.operand (rmwCycles i.operand.mode) modify second s =
      (let r := modify (i.operand.fetch s).1
        { s with pc := s.pc + BitVec.ofNat 16 i.length, bus := (i.operand.fetch s).2.bus }
       .next ((second r.1 (r.2.write (i.operand.ea s) r.1)).tick (rmwCycles i.operand.mode))) := by
  simp only [rmwOp]
  rw [fetch_state, length_eq h]
  rfl

/-- Which shared operation each mnemonic is, with its effect and its cycle counts, in every mode it has
(41_load_store_transfer.md to 46_unofficial.md). -/
theorem exec_by_mnemonic (i : Instr) (s : State) :
    match i.mnemonic with
    | .lda => exec i s = readOp i.operand (readCycles i.operand.mode) (fun m t => t.setA m) s
    | .ldx => exec i s = readOp i.operand (readCycles i.operand.mode) (fun m t => t.setX m) s
    | .ldy => exec i s = readOp i.operand (readCycles i.operand.mode) (fun m t => t.setY m) s
    | .lax => exec i s = readOp i.operand (readCycles i.operand.mode) lax s
    | .adc => exec i s = readOp i.operand (readCycles i.operand.mode) adc s
    | .sbc => exec i s = readOp i.operand (readCycles i.operand.mode) sbc s
    | .and => exec i s = readOp i.operand (readCycles i.operand.mode) andA s
    | .ora => exec i s = readOp i.operand (readCycles i.operand.mode) oraA s
    | .eor => exec i s = readOp i.operand (readCycles i.operand.mode) eorA s
    | .cmp => exec i s = readOp i.operand (readCycles i.operand.mode) cmp s
    | .cpx => exec i s = readOp i.operand (readCycles i.operand.mode) cpx s
    | .cpy => exec i s = readOp i.operand (readCycles i.operand.mode) cpy s
    | .bit => exec i s = readOp i.operand (readCycles i.operand.mode) bitTest s
    | .anc => exec i s = readOp i.operand (readCycles i.operand.mode) anc s
    | .alr => exec i s = readOp i.operand (readCycles i.operand.mode) alr s
    | .arr => exec i s = readOp i.operand (readCycles i.operand.mode) arr s
    | .axs => exec i s = readOp i.operand (readCycles i.operand.mode) axs s
    | .sta => exec i s = writeOp i.operand (writeCycles i.operand.mode) (fun t => t.a) s
    | .stx => exec i s = writeOp i.operand (writeCycles i.operand.mode) (fun t => t.x) s
    | .sty => exec i s = writeOp i.operand (writeCycles i.operand.mode) (fun t => t.y) s
    | .sax => exec i s = writeOp i.operand (writeCycles i.operand.mode) (fun t => t.a &&& t.x) s
    | .inc => exec i s = rmwOp i.operand (rmwCycles i.operand.mode) incModify noSecond s
    | .dec => exec i s = rmwOp i.operand (rmwCycles i.operand.mode) decModify noSecond s
    | .asl => exec i s = if i.operand = .acc then shiftAcc aslOp s
        else rmwOp i.operand (rmwCycles i.operand.mode) (shiftModify aslOp) noSecond s
    | .lsr => exec i s = if i.operand = .acc then shiftAcc lsrOp s
        else rmwOp i.operand (rmwCycles i.operand.mode) (shiftModify lsrOp) noSecond s
    | .rol => exec i s = if i.operand = .acc then shiftAcc rolOp s
        else rmwOp i.operand (rmwCycles i.operand.mode) (shiftModify rolOp) noSecond s
    | .ror => exec i s = if i.operand = .acc then shiftAcc rorOp s
        else rmwOp i.operand (rmwCycles i.operand.mode) (shiftModify rorOp) noSecond s
    | .slo => exec i s = rmwOp i.operand (rmwCycles i.operand.mode) (carryModify aslOp) oraA s
    | .rla => exec i s = rmwOp i.operand (rmwCycles i.operand.mode) (carryModify rolOp) andA s
    | .sre => exec i s = rmwOp i.operand (rmwCycles i.operand.mode) (carryModify lsrOp) eorA s
    | .rra => exec i s = rmwOp i.operand (rmwCycles i.operand.mode) (carryModify rorOp) adc s
    | .dcp => exec i s = rmwOp i.operand (rmwCycles i.operand.mode) decOnly cmp s
    | .isc => exec i s = rmwOp i.operand (rmwCycles i.operand.mode) incOnly sbc s
    | .nop => exec i s = nopOp i.operand (readCycles i.operand.mode) s
    | .ane | .lxa | .las => exec i s = unstableOp i.opcode false s
    | .sha | .tas | .shx | .shy => exec i s = unstableOp i.opcode true s
    | .tax => exec i s = impliedOp 2 (fun t => t.setX t.a) s
    | .tay => exec i s = impliedOp 2 (fun t => t.setY t.a) s
    | .txa => exec i s = impliedOp 2 (fun t => t.setA t.x) s
    | .tya => exec i s = impliedOp 2 (fun t => t.setA t.y) s
    | .tsx => exec i s = impliedOp 2 (fun t => t.setX t.sp) s
    | .txs => exec i s = impliedOp 2 (fun t => { t with sp := t.x }) s
    | .inx => exec i s = impliedOp 2 (fun t => t.setX (t.x + 1)) s
    | .iny => exec i s = impliedOp 2 (fun t => t.setY (t.y + 1)) s
    | .dex => exec i s = impliedOp 2 (fun t => t.setX (t.x - 1)) s
    | .dey => exec i s = impliedOp 2 (fun t => t.setY (t.y - 1)) s
    | .clc => exec i s = impliedOp 2 (fun t => t.setP { t.p with c := false }) s
    | .sec => exec i s = impliedOp 2 (fun t => t.setP { t.p with c := true }) s
    | .cli => exec i s = impliedOp 2 (fun t => t.setP { t.p with i := false }) s
    | .sei => exec i s = impliedOp 2 (fun t => t.setP { t.p with i := true }) s
    | .clv => exec i s = impliedOp 2 (fun t => t.setP { t.p with v := false }) s
    | .cld => exec i s = impliedOp 2 (fun t => t.setP { t.p with d := false }) s
    | .sed => exec i s = impliedOp 2 (fun t => t.setP { t.p with d := true }) s
    | .php => exec i s = execPhp s
    | .pha => exec i s = execPha s
    | .plp => exec i s = execPlp s
    | .pla => exec i s = execPla s
    | .bpl => ∃ off, exec i s = branchOp (fun t => !t.p.n) off s
    | .bmi => ∃ off, exec i s = branchOp (fun t => t.p.n) off s
    | .bvc => ∃ off, exec i s = branchOp (fun t => !t.p.v) off s
    | .bvs => ∃ off, exec i s = branchOp (fun t => t.p.v) off s
    | .bcc => ∃ off, exec i s = branchOp (fun t => !t.p.c) off s
    | .bcs => ∃ off, exec i s = branchOp (fun t => t.p.c) off s
    | .bne => ∃ off, exec i s = branchOp (fun t => !t.p.z) off s
    | .beq => ∃ off, exec i s = branchOp (fun t => t.p.z) off s
    | .jmp => ∃ a, exec i s = execJmpAbs a s ∨ exec i s = execJmpInd a s
    | .jsr => ∃ a, exec i s = execJsr a s
    | .rts => exec i s = execRts s
    | .rti => exec i s = execRti s
    | .brk => exec i s = execBrk s
    | .jam => exec i s = .next { s.advance 1 with jammed := true } := by
  cases i
  all_goals first
    | rfl
    | exact ⟨_, .inl rfl⟩
    | exact ⟨_, .inr rfl⟩
    | exact ⟨_, rfl⟩

/-! ### What no instruction moves -/

theorem Bus.Steady.fetch (o : Operand) (s : State) : s.bus.Steady (o.fetch s).2.bus := by
  cases o <;> first | exact .refl _ | exact .read ..

/-- An instruction that completes counts at most 8 cycles, and moves neither the supplied cartridge nor the
PPU's place in its frame. -/
theorem exec_steady {i : Instr} {s t : State} (h : exec i s = .next t) :
    s.bus.Steady t.bus ∧ t.stepCycles ≤ s.stepCycles + 8 := by
  have e := exec_by_mnemonic i s
  have hr : ∀ m, readCycles m ≤ 6 := by intro m; cases m <;> decide
  have hw : ∀ m, writeCycles m ≤ 6 := by intro m; cases m <;> decide
  have hm : ∀ m, rmwCycles m ≤ 8 := by intro m; cases m <;> decide
  have le : ∀ k, k ≤ 8 → s.stepCycles + k ≤ s.stepCycles + 8 := fun k h => Nat.add_le_add_left h _
  have read : ∀ eff : Byte → State → State,
      readOp i.operand (readCycles i.operand.mode) eff s = .next t →
      (∀ m u, (eff m u).bus = u.bus ∧ (eff m u).stepCycles = u.stepCycles) →
      s.bus.Steady t.bus ∧ t.stepCycles ≤ s.stepCycles + 8 := by
    intro eff h he
    cases h
    rw [fetch_state, State.tick_bus, State.tick_stepCycles, (he ..).1, (he ..).2]
    refine ⟨.fetch .., ?_⟩
    have := hr i.operand.mode
    have : i.operand.penalty s ≤ 1 := by unfold Operand.penalty; cases i.operand.crossed s <;> decide
    simp only [State.advance_stepCycles]
    omega
  have rmw : ∀ (mod : Byte → State → Byte × State) (eff : Byte → State → State),
      rmwOp i.operand (rmwCycles i.operand.mode) mod eff s = .next t →
      (∀ m u, (eff m u).bus = u.bus ∧ (eff m u).stepCycles = u.stepCycles) →
      (∀ m u, (mod m u).2.bus = u.bus ∧ (mod m u).2.stepCycles = u.stepCycles) →
      s.bus.Steady t.bus ∧ t.stepCycles ≤ s.stepCycles + 8 := by
    intro mod eff h he hmod
    cases h
    rw [fetch_state, State.tick_bus, State.tick_stepCycles, (he ..).1, (he ..).2, State.write_bus,
      State.write_stepCycles, (hmod ..).1, (hmod ..).2]
    have := hm i.operand.mode
    exact ⟨(Bus.Steady.fetch ..).trans (.write ..), by simp only [State.advance_stepCycles]; omega⟩
  generalize i.mnemonic = m at e
  cases m <;> simp only at e
  case bpl | bmi | bvc | bvs | bcc | bcs | bne | beq =>
    obtain ⟨off, e⟩ := e
    rw [e] at h; cases h
    refine ⟨.refl _, ?_⟩
    rw [State.tick_stepCycles]
    apply le
    split
    · cases pageCross (s.pc + 2) (branchTarget s.pc off) <;> decide
    · decide
  case jmp =>
    obtain ⟨a, e | e⟩ := e <;> rw [e] at h <;> cases h
    · exact ⟨.refl _, le _ (by decide)⟩
    · exact ⟨(Bus.Steady.read ..).trans (.read ..), le _ (by decide)⟩
  case jsr =>
    obtain ⟨a, e⟩ := e
    rw [e] at h; cases h
    exact ⟨⟨rfl, rfl, rfl, rfl⟩, le _ (by decide)⟩
  all_goals rw [e] at h; clear e
  case ane | lxa | las | sha | tas | shx | shy =>
    unfold unstableOp at h; split at h <;> cases h
  case brk =>
    unfold execBrk at h
    split at h
    · cases h
    · rw [State.takeInterrupt_eq] at h; cases h
      refine ⟨Bus.Steady.trans (b := s.bus) ?_ ((Bus.Steady.read ..).trans (.read ..)), le _ (by decide)⟩
      exact ((Bus.Steady.write ..).trans (.write ..)).trans (.write ..)
  case asl | lsr | rol | ror =>
    split at h
    · cases h; exact ⟨.refl _, le _ (by decide)⟩
    · exact rmw _ _ h (fun _ _ => ⟨rfl, rfl⟩) (fun _ _ => ⟨rfl, rfl⟩)
  case inc | dec | slo | rla | sre | rra | dcp | isc =>
    exact rmw _ _ h (fun _ _ => ⟨rfl, rfl⟩) (fun _ _ => ⟨rfl, rfl⟩)
  case sta | stx | sty | sax =>
    cases h
    have := hw i.operand.mode
    exact ⟨.write .., by simp; omega⟩
  case nop =>
    cases h
    have := hr i.operand.mode
    have : i.operand.penalty s ≤ 1 := by unfold Operand.penalty; cases i.operand.crossed s <;> decide
    exact ⟨.refl _, by simp; omega⟩
  case lda | ldx | ldy | lax | adc | sbc | and | ora | eor | cmp | cpx | cpy | bit | anc | alr | arr | axs =>
    exact read _ h fun _ _ => ⟨rfl, rfl⟩
  case jam => cases h; exact ⟨.refl _, le 0 (by decide)⟩
  all_goals
    cases h
    exact ⟨⟨rfl, rfl, rfl, rfl⟩, le _ (by decide)⟩
end Sys2Proof.Machine
end

