-- ==== Sys2Proof/Laws/PerInstr.lean ====
section
/-! SUPPORT. The statements about every instruction, one lemma per constructor: each instruction is a form the
ISA has, its encoding has the length of its mode, and its opcode byte comes first (30_encoding.md R80, R81). -/
namespace Sys2Proof.Laws

/-- What holds of every instruction as syntax: its mnemonic has its mode, and its bytes are its opcode byte and
as many operand bytes as the mode has. -/
def WellFormedness.Statement (i : Instr) : Prop :=
  i.form.wellFormed = true ∧ (encode i).head? = some i.opcode ∧ (encode i).length = i.operand.mode.length

theorem WellFormedness.brk : WellFormedness.Statement (.brk) := ⟨rfl, rfl, rfl⟩
theorem WellFormedness.oraIzx (b : Byte) : WellFormedness.Statement (.oraIzx b) := ⟨rfl, rfl, rfl⟩
theorem WellFormedness.jam (op : Byte) : WellFormedness.Statement (.jam op) := ⟨rfl, rfl, rfl⟩
theorem WellFormedness.sloIzx (b : Byte) : WellFormedness.Statement (.sloIzx b) := ⟨rfl, rfl, rfl⟩
theorem WellFormedness.nopZp (op : Byte) (b : Byte) : WellFormedness.Statement (.nopZp op b) := ⟨rfl, rfl, rfl⟩
theorem WellFormedness.oraZp (b : Byte) : WellFormedness.Statement (.oraZp b) := ⟨rfl, rfl, rfl⟩
theorem WellFormedness.aslZp (b : Byte) : WellFormedness.Statement (.aslZp b) := ⟨rfl, rfl, rfl⟩
theorem WellFormedness.sloZp (b : Byte) : WellFormedness.Statement (.sloZp b) := ⟨rfl, rfl, rfl⟩
theorem WellFormedness.php : WellFormedness.Statement (.php) := ⟨rfl, rfl, rfl⟩
theorem WellFormedness.oraImm (v : Byte) : WellFormedness.Statement (.oraImm v) := ⟨rfl, rfl, rfl⟩
theorem WellFormedness.aslAcc : WellFormedness.Statement (.aslAcc) := ⟨rfl, rfl, rfl⟩
theorem WellFormedness.anc (op : Byte) (v : Byte) : WellFormedness.Statement (.anc op v) := ⟨rfl, rfl, rfl⟩
theorem WellFormedness.nopAbs (a : Word) : WellFormedness.Statement (.nopAbs a) := ⟨rfl, rfl, rfl⟩
theorem WellFormedness.oraAbs (a : Word) : WellFormedness.Statement (.oraAbs a) := ⟨rfl, rfl, rfl⟩
theorem WellFormedness.aslAbs (a : Word) : WellFormedness.Statement (.aslAbs a) := ⟨rfl, rfl, rfl⟩
theorem WellFormedness.sloAbs (a : Word) : WellFormedness.Statement (.sloAbs a) := ⟨rfl, rfl, rfl⟩
theorem WellFormedness.bpl (off : Byte) : WellFormedness.Statement (.bpl off) := ⟨rfl, rfl, rfl⟩
theorem WellFormedness.oraIzy (b : Byte) : WellFormedness.Statement (.oraIzy b) := ⟨rfl, rfl, rfl⟩
theorem WellFormedness.sloIzy (b : Byte) : WellFormedness.Statement (.sloIzy b) := ⟨rfl, rfl, rfl⟩
theorem WellFormedness.nopZpx (op : Byte) (b : Byte) : WellFormedness.Statement (.nopZpx op b) := ⟨rfl, rfl, rfl⟩
theorem WellFormedness.oraZpx (b : Byte) : WellFormedness.Statement (.oraZpx b) := ⟨rfl, rfl, rfl⟩
theorem WellFormedness.aslZpx (b : Byte) : WellFormedness.Statement (.aslZpx b) := ⟨rfl, rfl, rfl⟩
theorem WellFormedness.sloZpx (b : Byte) : WellFormedness.Statement (.sloZpx b) := ⟨rfl, rfl, rfl⟩
theorem WellFormedness.clc : WellFormedness.Statement (.clc) := ⟨rfl, rfl, rfl⟩
theorem WellFormedness.oraAbsy (a : Word) : WellFormedness.Statement (.oraAbsy a) := ⟨rfl, rfl, rfl⟩
theorem WellFormedness.nopImplied (op : Byte) : WellFormedness.Statement (.nopImplied op) := ⟨rfl, rfl, rfl⟩
theorem WellFormedness.sloAbsy (a : Word) : WellFormedness.Statement (.sloAbsy a) := ⟨rfl, rfl, rfl⟩
theorem WellFormedness.nopAbsx (op : Byte) (a : Word) : WellFormedness.Statement (.nopAbsx op a) := ⟨rfl, rfl, rfl⟩
theorem WellFormedness.oraAbsx (a : Word) : WellFormedness.Statement (.oraAbsx a) := ⟨rfl, rfl, rfl⟩
theorem WellFormedness.aslAbsx (a : Word) : WellFormedness.Statement (.aslAbsx a) := ⟨rfl, rfl, rfl⟩
theorem WellFormedness.sloAbsx (a : Word) : WellFormedness.Statement (.sloAbsx a) := ⟨rfl, rfl, rfl⟩
theorem WellFormedness.jsr (a : Word) : WellFormedness.Statement (.jsr a) := ⟨rfl, rfl, rfl⟩
theorem WellFormedness.andIzx (b : Byte) : WellFormedness.Statement (.andIzx b) := ⟨rfl, rfl, rfl⟩
theorem WellFormedness.rlaIzx (b : Byte) : WellFormedness.Statement (.rlaIzx b) := ⟨rfl, rfl, rfl⟩
theorem WellFormedness.bitZp (b : Byte) : WellFormedness.Statement (.bitZp b) := ⟨rfl, rfl, rfl⟩
theorem WellFormedness.andZp (b : Byte) : WellFormedness.Statement (.andZp b) := ⟨rfl, rfl, rfl⟩
theorem WellFormedness.rolZp (b : Byte) : WellFormedness.Statement (.rolZp b) := ⟨rfl, rfl, rfl⟩
theorem WellFormedness.rlaZp (b : Byte) : WellFormedness.Statement (.rlaZp b) := ⟨rfl, rfl, rfl⟩
theorem WellFormedness.plp : WellFormedness.Statement (.plp) := ⟨rfl, rfl, rfl⟩
theorem WellFormedness.andImm (v : Byte) : WellFormedness.Statement (.andImm v) := ⟨rfl, rfl, rfl⟩
theorem WellFormedness.rolAcc : WellFormedness.Statement (.rolAcc) := ⟨rfl, rfl, rfl⟩
theorem WellFormedness.bitAbs (a : Word) : WellFormedness.Statement (.bitAbs a) := ⟨rfl, rfl, rfl⟩
theorem WellFormedness.andAbs (a : Word) : WellFormedness.Statement (.andAbs a) := ⟨rfl, rfl, rfl⟩
theorem WellFormedness.rolAbs (a : Word) : WellFormedness.Statement (.rolAbs a) := ⟨rfl, rfl, rfl⟩
theorem WellFormedness.rlaAbs (a : Word) : WellFormedness.Statement (.rlaAbs a) := ⟨rfl, rfl, rfl⟩
theorem WellFormedness.bmi (off : Byte) : WellFormedness.Statement (.bmi off) := ⟨rfl, rfl, rfl⟩
theorem WellFormedness.andIzy (b : Byte) : WellFormedness.Statement (.andIzy b) := ⟨rfl, rfl, rfl⟩
theorem WellFormedness.rlaIzy (b : Byte) : WellFormedness.Statement (.rlaIzy b) := ⟨rfl, rfl, rfl⟩
theorem WellFormedness.andZpx (b : Byte) : WellFormedness.Statement (.andZpx b) := ⟨rfl, rfl, rfl⟩
theorem WellFormedness.rolZpx (b : Byte) : WellFormedness.Statement (.rolZpx b) := ⟨rfl, rfl, rfl⟩
theorem WellFormedness.rlaZpx (b : Byte) : WellFormedness.Statement (.rlaZpx b) := ⟨rfl, rfl, rfl⟩
theorem WellFormedness.sec : WellFormedness.Statement (.sec) := ⟨rfl, rfl, rfl⟩
theorem WellFormedness.andAbsy (a : Word) : WellFormedness.Statement (.andAbsy a) := ⟨rfl, rfl, rfl⟩
theorem WellFormedness.rlaAbsy (a : Word) : WellFormedness.Statement (.rlaAbsy a) := ⟨rfl, rfl, rfl⟩
theorem WellFormedness.andAbsx (a : Word) : WellFormedness.Statement (.andAbsx a) := ⟨rfl, rfl, rfl⟩
theorem WellFormedness.rolAbsx (a : Word) : WellFormedness.Statement (.rolAbsx a) := ⟨rfl, rfl, rfl⟩
theorem WellFormedness.rlaAbsx (a : Word) : WellFormedness.Statement (.rlaAbsx a) := ⟨rfl, rfl, rfl⟩
theorem WellFormedness.rti : WellFormedness.Statement (.rti) := ⟨rfl, rfl, rfl⟩
theorem WellFormedness.eorIzx (b : Byte) : WellFormedness.Statement (.eorIzx b) := ⟨rfl, rfl, rfl⟩
theorem WellFormedness.sreIzx (b : Byte) : WellFormedness.Statement (.sreIzx b) := ⟨rfl, rfl, rfl⟩
theorem WellFormedness.eorZp (b : Byte) : WellFormedness.Statement (.eorZp b) := ⟨rfl, rfl, rfl⟩
theorem WellFormedness.lsrZp (b : Byte) : WellFormedness.Statement (.lsrZp b) := ⟨rfl, rfl, rfl⟩
theorem WellFormedness.sreZp (b : Byte) : WellFormedness.Statement (.sreZp b) := ⟨rfl, rfl, rfl⟩
theorem WellFormedness.pha : WellFormedness.Statement (.pha) := ⟨rfl, rfl, rfl⟩
theorem WellFormedness.eorImm (v : Byte) : WellFormedness.Statement (.eorImm v) := ⟨rfl, rfl, rfl⟩
theorem WellFormedness.lsrAcc : WellFormedness.Statement (.lsrAcc) := ⟨rfl, rfl, rfl⟩
theorem WellFormedness.alr (v : Byte) : WellFormedness.Statement (.alr v) := ⟨rfl, rfl, rfl⟩
theorem WellFormedness.jmpAbs (a : Word) : WellFormedness.Statement (.jmpAbs a) := ⟨rfl, rfl, rfl⟩
theorem WellFormedness.eorAbs (a : Word) : WellFormedness.Statement (.eorAbs a) := ⟨rfl, rfl, rfl⟩
theorem WellFormedness.lsrAbs (a : Word) : WellFormedness.Statement (.lsrAbs a) := ⟨rfl, rfl, rfl⟩
theorem WellFormedness.sreAbs (a : Word) : WellFormedness.Statement (.sreAbs a) := ⟨rfl, rfl, rfl⟩
theorem WellFormedness.bvc (off : Byte) : WellFormedness.Statement (.bvc off) := ⟨rfl, rfl, rfl⟩
theorem WellFormedness.eorIzy (b : Byte) : WellFormedness.Statement (.eorIzy b) := ⟨rfl, rfl, rfl⟩
theorem WellFormedness.sreIzy (b : Byte) : WellFormedness.Statement (.sreIzy b) := ⟨rfl, rfl, rfl⟩
theorem WellFormedness.eorZpx (b : Byte) : WellFormedness.Statement (.eorZpx b) := ⟨rfl, rfl, rfl⟩
theorem WellFormedness.lsrZpx (b : Byte) : WellFormedness.Statement (.lsrZpx b) := ⟨rfl, rfl, rfl⟩
theorem WellFormedness.sreZpx (b : Byte) : WellFormedness.Statement (.sreZpx b) := ⟨rfl, rfl, rfl⟩
theorem WellFormedness.cli : WellFormedness.Statement (.cli) := ⟨rfl, rfl, rfl⟩
theorem WellFormedness.eorAbsy (a : Word) : WellFormedness.Statement (.eorAbsy a) := ⟨rfl, rfl, rfl⟩
theorem WellFormedness.sreAbsy (a : Word) : WellFormedness.Statement (.sreAbsy a) := ⟨rfl, rfl, rfl⟩
theorem WellFormedness.eorAbsx (a : Word) : WellFormedness.Statement (.eorAbsx a) := ⟨rfl, rfl, rfl⟩
theorem WellFormedness.lsrAbsx (a : Word) : WellFormedness.Statement (.lsrAbsx a) := ⟨rfl, rfl, rfl⟩
theorem WellFormedness.sreAbsx (a : Word) : WellFormedness.Statement (.sreAbsx a) := ⟨rfl, rfl, rfl⟩
theorem WellFormedness.rts : WellFormedness.Statement (.rts) := ⟨rfl, rfl, rfl⟩
theorem WellFormedness.adcIzx (b : Byte) : WellFormedness.Statement (.adcIzx b) := ⟨rfl, rfl, rfl⟩
theorem WellFormedness.rraIzx (b : Byte) : WellFormedness.Statement (.rraIzx b) := ⟨rfl, rfl, rfl⟩
theorem WellFormedness.adcZp (b : Byte) : WellFormedness.Statement (.adcZp b) := ⟨rfl, rfl, rfl⟩
theorem WellFormedness.rorZp (b : Byte) : WellFormedness.Statement (.rorZp b) := ⟨rfl, rfl, rfl⟩
theorem WellFormedness.rraZp (b : Byte) : WellFormedness.Statement (.rraZp b) := ⟨rfl, rfl, rfl⟩
theorem WellFormedness.pla : WellFormedness.Statement (.pla) := ⟨rfl, rfl, rfl⟩
theorem WellFormedness.adcImm (v : Byte) : WellFormedness.Statement (.adcImm v) := ⟨rfl, rfl, rfl⟩
theorem WellFormedness.rorAcc : WellFormedness.Statement (.rorAcc) := ⟨rfl, rfl, rfl⟩
theorem WellFormedness.arr (v : Byte) : WellFormedness.Statement (.arr v) := ⟨rfl, rfl, rfl⟩
theorem WellFormedness.jmpInd (a : Word) : WellFormedness.Statement (.jmpInd a) := ⟨rfl, rfl, rfl⟩
theorem WellFormedness.adcAbs (a : Word) : WellFormedness.Statement (.adcAbs a) := ⟨rfl, rfl, rfl⟩
theorem WellFormedness.rorAbs (a : Word) : WellFormedness.Statement (.rorAbs a) := ⟨rfl, rfl, rfl⟩
theorem WellFormedness.rraAbs (a : Word) : WellFormedness.Statement (.rraAbs a) := ⟨rfl, rfl, rfl⟩
theorem WellFormedness.bvs (off : Byte) : WellFormedness.Statement (.bvs off) := ⟨rfl, rfl, rfl⟩
theorem WellFormedness.adcIzy (b : Byte) : WellFormedness.Statement (.adcIzy b) := ⟨rfl, rfl, rfl⟩
theorem WellFormedness.rraIzy (b : Byte) : WellFormedness.Statement (.rraIzy b) := ⟨rfl, rfl, rfl⟩
theorem WellFormedness.adcZpx (b : Byte) : WellFormedness.Statement (.adcZpx b) := ⟨rfl, rfl, rfl⟩
theorem WellFormedness.rorZpx (b : Byte) : WellFormedness.Statement (.rorZpx b) := ⟨rfl, rfl, rfl⟩
theorem WellFormedness.rraZpx (b : Byte) : WellFormedness.Statement (.rraZpx b) := ⟨rfl, rfl, rfl⟩
theorem WellFormedness.sei : WellFormedness.Statement (.sei) := ⟨rfl, rfl, rfl⟩
theorem WellFormedness.adcAbsy (a : Word) : WellFormedness.Statement (.adcAbsy a) := ⟨rfl, rfl, rfl⟩
theorem WellFormedness.rraAbsy (a : Word) : WellFormedness.Statement (.rraAbsy a) := ⟨rfl, rfl, rfl⟩
theorem WellFormedness.adcAbsx (a : Word) : WellFormedness.Statement (.adcAbsx a) := ⟨rfl, rfl, rfl⟩
theorem WellFormedness.rorAbsx (a : Word) : WellFormedness.Statement (.rorAbsx a) := ⟨rfl, rfl, rfl⟩
theorem WellFormedness.rraAbsx (a : Word) : WellFormedness.Statement (.rraAbsx a) := ⟨rfl, rfl, rfl⟩
theorem WellFormedness.nopImm (op : Byte) (v : Byte) : WellFormedness.Statement (.nopImm op v) := ⟨rfl, rfl, rfl⟩
theorem WellFormedness.staIzx (b : Byte) : WellFormedness.Statement (.staIzx b) := ⟨rfl, rfl, rfl⟩
theorem WellFormedness.saxIzx (b : Byte) : WellFormedness.Statement (.saxIzx b) := ⟨rfl, rfl, rfl⟩
theorem WellFormedness.styZp (b : Byte) : WellFormedness.Statement (.styZp b) := ⟨rfl, rfl, rfl⟩
theorem WellFormedness.staZp (b : Byte) : WellFormedness.Statement (.staZp b) := ⟨rfl, rfl, rfl⟩
theorem WellFormedness.stxZp (b : Byte) : WellFormedness.Statement (.stxZp b) := ⟨rfl, rfl, rfl⟩
theorem WellFormedness.saxZp (b : Byte) : WellFormedness.Statement (.saxZp b) := ⟨rfl, rfl, rfl⟩
theorem WellFormedness.dey : WellFormedness.Statement (.dey) := ⟨rfl, rfl, rfl⟩
theorem WellFormedness.txa : WellFormedness.Statement (.txa) := ⟨rfl, rfl, rfl⟩
theorem WellFormedness.ane (v : Byte) : WellFormedness.Statement (.ane v) := ⟨rfl, rfl, rfl⟩
theorem WellFormedness.styAbs (a : Word) : WellFormedness.Statement (.styAbs a) := ⟨rfl, rfl, rfl⟩
theorem WellFormedness.staAbs (a : Word) : WellFormedness.Statement (.staAbs a) := ⟨rfl, rfl, rfl⟩
theorem WellFormedness.stxAbs (a : Word) : WellFormedness.Statement (.stxAbs a) := ⟨rfl, rfl, rfl⟩
theorem WellFormedness.saxAbs (a : Word) : WellFormedness.Statement (.saxAbs a) := ⟨rfl, rfl, rfl⟩
theorem WellFormedness.bcc (off : Byte) : WellFormedness.Statement (.bcc off) := ⟨rfl, rfl, rfl⟩
theorem WellFormedness.staIzy (b : Byte) : WellFormedness.Statement (.staIzy b) := ⟨rfl, rfl, rfl⟩
theorem WellFormedness.shaIzy (b : Byte) : WellFormedness.Statement (.shaIzy b) := ⟨rfl, rfl, rfl⟩
theorem WellFormedness.styZpx (b : Byte) : WellFormedness.Statement (.styZpx b) := ⟨rfl, rfl, rfl⟩
theorem WellFormedness.staZpx (b : Byte) : WellFormedness.Statement (.staZpx b) := ⟨rfl, rfl, rfl⟩
theorem WellFormedness.stxZpy (b : Byte) : WellFormedness.Statement (.stxZpy b) := ⟨rfl, rfl, rfl⟩
theorem WellFormedness.saxZpy (b : Byte) : WellFormedness.Statement (.saxZpy b) := ⟨rfl, rfl, rfl⟩
theorem WellFormedness.tya : WellFormedness.Statement (.tya) := ⟨rfl, rfl, rfl⟩
theorem WellFormedness.staAbsy (a : Word) : WellFormedness.Statement (.staAbsy a) := ⟨rfl, rfl, rfl⟩
theorem WellFormedness.txs : WellFormedness.Statement (.txs) := ⟨rfl, rfl, rfl⟩
theorem WellFormedness.tas (a : Word) : WellFormedness.Statement (.tas a) := ⟨rfl, rfl, rfl⟩
theorem WellFormedness.shy (a : Word) : WellFormedness.Statement (.shy a) := ⟨rfl, rfl, rfl⟩
theorem WellFormedness.staAbsx (a : Word) : WellFormedness.Statement (.staAbsx a) := ⟨rfl, rfl, rfl⟩
theorem WellFormedness.shx (a : Word) : WellFormedness.Statement (.shx a) := ⟨rfl, rfl, rfl⟩
theorem WellFormedness.shaAbsy (a : Word) : WellFormedness.Statement (.shaAbsy a) := ⟨rfl, rfl, rfl⟩
theorem WellFormedness.ldyImm (v : Byte) : WellFormedness.Statement (.ldyImm v) := ⟨rfl, rfl, rfl⟩
theorem WellFormedness.ldaIzx (b : Byte) : WellFormedness.Statement (.ldaIzx b) := ⟨rfl, rfl, rfl⟩
theorem WellFormedness.ldxImm (v : Byte) : WellFormedness.Statement (.ldxImm v) := ⟨rfl, rfl, rfl⟩
theorem WellFormedness.laxIzx (b : Byte) : WellFormedness.Statement (.laxIzx b) := ⟨rfl, rfl, rfl⟩
theorem WellFormedness.ldyZp (b : Byte) : WellFormedness.Statement (.ldyZp b) := ⟨rfl, rfl, rfl⟩
theorem WellFormedness.ldaZp (b : Byte) : WellFormedness.Statement (.ldaZp b) := ⟨rfl, rfl, rfl⟩
theorem WellFormedness.ldxZp (b : Byte) : WellFormedness.Statement (.ldxZp b) := ⟨rfl, rfl, rfl⟩
theorem WellFormedness.laxZp (b : Byte) : WellFormedness.Statement (.laxZp b) := ⟨rfl, rfl, rfl⟩
theorem WellFormedness.tay : WellFormedness.Statement (.tay) := ⟨rfl, rfl, rfl⟩
theorem WellFormedness.ldaImm (v : Byte) : WellFormedness.Statement (.ldaImm v) := ⟨rfl, rfl, rfl⟩
theorem WellFormedness.tax : WellFormedness.Statement (.tax) := ⟨rfl, rfl, rfl⟩
theorem WellFormedness.lxa (v : Byte) : WellFormedness.Statement (.lxa v) := ⟨rfl, rfl, rfl⟩
theorem WellFormedness.ldyAbs (a : Word) : WellFormedness.Statement (.ldyAbs a) := ⟨rfl, rfl, rfl⟩
theorem WellFormedness.ldaAbs (a : Word) : WellFormedness.Statement (.ldaAbs a) := ⟨rfl, rfl, rfl⟩
theorem WellFormedness.ldxAbs (a : Word) : WellFormedness.Statement (.ldxAbs a) := ⟨rfl, rfl, rfl⟩
theorem WellFormedness.laxAbs (a : Word) : WellFormedness.Statement (.laxAbs a) := ⟨rfl, rfl, rfl⟩
theorem WellFormedness.bcs (off : Byte) : WellFormedness.Statement (.bcs off) := ⟨rfl, rfl, rfl⟩
theorem WellFormedness.ldaIzy (b : Byte) : WellFormedness.Statement (.ldaIzy b) := ⟨rfl, rfl, rfl⟩
theorem WellFormedness.laxIzy (b : Byte) : WellFormedness.Statement (.laxIzy b) := ⟨rfl, rfl, rfl⟩
theorem WellFormedness.ldyZpx (b : Byte) : WellFormedness.Statement (.ldyZpx b) := ⟨rfl, rfl, rfl⟩
theorem WellFormedness.ldaZpx (b : Byte) : WellFormedness.Statement (.ldaZpx b) := ⟨rfl, rfl, rfl⟩
theorem WellFormedness.ldxZpy (b : Byte) : WellFormedness.Statement (.ldxZpy b) := ⟨rfl, rfl, rfl⟩
theorem WellFormedness.laxZpy (b : Byte) : WellFormedness.Statement (.laxZpy b) := ⟨rfl, rfl, rfl⟩
theorem WellFormedness.clv : WellFormedness.Statement (.clv) := ⟨rfl, rfl, rfl⟩
theorem WellFormedness.ldaAbsy (a : Word) : WellFormedness.Statement (.ldaAbsy a) := ⟨rfl, rfl, rfl⟩
theorem WellFormedness.tsx : WellFormedness.Statement (.tsx) := ⟨rfl, rfl, rfl⟩
theorem WellFormedness.las (a : Word) : WellFormedness.Statement (.las a) := ⟨rfl, rfl, rfl⟩
theorem WellFormedness.ldyAbsx (a : Word) : WellFormedness.Statement (.ldyAbsx a) := ⟨rfl, rfl, rfl⟩
theorem WellFormedness.ldaAbsx (a : Word) : WellFormedness.Statement (.ldaAbsx a) := ⟨rfl, rfl, rfl⟩
theorem WellFormedness.ldxAbsy (a : Word) : WellFormedness.Statement (.ldxAbsy a) := ⟨rfl, rfl, rfl⟩
theorem WellFormedness.laxAbsy (a : Word) : WellFormedness.Statement (.laxAbsy a) := ⟨rfl, rfl, rfl⟩
theorem WellFormedness.cpyImm (v : Byte) : WellFormedness.Statement (.cpyImm v) := ⟨rfl, rfl, rfl⟩
theorem WellFormedness.cmpIzx (b : Byte) : WellFormedness.Statement (.cmpIzx b) := ⟨rfl, rfl, rfl⟩
theorem WellFormedness.dcpIzx (b : Byte) : WellFormedness.Statement (.dcpIzx b) := ⟨rfl, rfl, rfl⟩
theorem WellFormedness.cpyZp (b : Byte) : WellFormedness.Statement (.cpyZp b) := ⟨rfl, rfl, rfl⟩
theorem WellFormedness.cmpZp (b : Byte) : WellFormedness.Statement (.cmpZp b) := ⟨rfl, rfl, rfl⟩
theorem WellFormedness.decZp (b : Byte) : WellFormedness.Statement (.decZp b) := ⟨rfl, rfl, rfl⟩
theorem WellFormedness.dcpZp (b : Byte) : WellFormedness.Statement (.dcpZp b) := ⟨rfl, rfl, rfl⟩
theorem WellFormedness.iny : WellFormedness.Statement (.iny) := ⟨rfl, rfl, rfl⟩
theorem WellFormedness.cmpImm (v : Byte) : WellFormedness.Statement (.cmpImm v) := ⟨rfl, rfl, rfl⟩
theorem WellFormedness.dex : WellFormedness.Statement (.dex) := ⟨rfl, rfl, rfl⟩
theorem WellFormedness.axs (v : Byte) : WellFormedness.Statement (.axs v) := ⟨rfl, rfl, rfl⟩
theorem WellFormedness.cpyAbs (a : Word) : WellFormedness.Statement (.cpyAbs a) := ⟨rfl, rfl, rfl⟩
theorem WellFormedness.cmpAbs (a : Word) : WellFormedness.Statement (.cmpAbs a) := ⟨rfl, rfl, rfl⟩
theorem WellFormedness.decAbs (a : Word) : WellFormedness.Statement (.decAbs a) := ⟨rfl, rfl, rfl⟩
theorem WellFormedness.dcpAbs (a : Word) : WellFormedness.Statement (.dcpAbs a) := ⟨rfl, rfl, rfl⟩
theorem WellFormedness.bne (off : Byte) : WellFormedness.Statement (.bne off) := ⟨rfl, rfl, rfl⟩
theorem WellFormedness.cmpIzy (b : Byte) : WellFormedness.Statement (.cmpIzy b) := ⟨rfl, rfl, rfl⟩
theorem WellFormedness.dcpIzy (b : Byte) : WellFormedness.Statement (.dcpIzy b) := ⟨rfl, rfl, rfl⟩
theorem WellFormedness.cmpZpx (b : Byte) : WellFormedness.Statement (.cmpZpx b) := ⟨rfl, rfl, rfl⟩
theorem WellFormedness.decZpx (b : Byte) : WellFormedness.Statement (.decZpx b) := ⟨rfl, rfl, rfl⟩
theorem WellFormedness.dcpZpx (b : Byte) : WellFormedness.Statement (.dcpZpx b) := ⟨rfl, rfl, rfl⟩
theorem WellFormedness.cld : WellFormedness.Statement (.cld) := ⟨rfl, rfl, rfl⟩
theorem WellFormedness.cmpAbsy (a : Word) : WellFormedness.Statement (.cmpAbsy a) := ⟨rfl, rfl, rfl⟩
theorem WellFormedness.dcpAbsy (a : Word) : WellFormedness.Statement (.dcpAbsy a) := ⟨rfl, rfl, rfl⟩
theorem WellFormedness.cmpAbsx (a : Word) : WellFormedness.Statement (.cmpAbsx a) := ⟨rfl, rfl, rfl⟩
theorem WellFormedness.decAbsx (a : Word) : WellFormedness.Statement (.decAbsx a) := ⟨rfl, rfl, rfl⟩
theorem WellFormedness.dcpAbsx (a : Word) : WellFormedness.Statement (.dcpAbsx a) := ⟨rfl, rfl, rfl⟩
theorem WellFormedness.cpxImm (v : Byte) : WellFormedness.Statement (.cpxImm v) := ⟨rfl, rfl, rfl⟩
theorem WellFormedness.sbcIzx (b : Byte) : WellFormedness.Statement (.sbcIzx b) := ⟨rfl, rfl, rfl⟩
theorem WellFormedness.iscIzx (b : Byte) : WellFormedness.Statement (.iscIzx b) := ⟨rfl, rfl, rfl⟩
theorem WellFormedness.cpxZp (b : Byte) : WellFormedness.Statement (.cpxZp b) := ⟨rfl, rfl, rfl⟩
theorem WellFormedness.sbcZp (b : Byte) : WellFormedness.Statement (.sbcZp b) := ⟨rfl, rfl, rfl⟩
theorem WellFormedness.incZp (b : Byte) : WellFormedness.Statement (.incZp b) := ⟨rfl, rfl, rfl⟩
theorem WellFormedness.iscZp (b : Byte) : WellFormedness.Statement (.iscZp b) := ⟨rfl, rfl, rfl⟩
theorem WellFormedness.inx : WellFormedness.Statement (.inx) := ⟨rfl, rfl, rfl⟩
theorem WellFormedness.sbcImm (v : Byte) : WellFormedness.Statement (.sbcImm v) := ⟨rfl, rfl, rfl⟩
theorem WellFormedness.nop : WellFormedness.Statement (.nop) := ⟨rfl, rfl, rfl⟩
theorem WellFormedness.sbcEB (v : Byte) : WellFormedness.Statement (.sbcEB v) := ⟨rfl, rfl, rfl⟩
theorem WellFormedness.cpxAbs (a : Word) : WellFormedness.Statement (.cpxAbs a) := ⟨rfl, rfl, rfl⟩
theorem WellFormedness.sbcAbs (a : Word) : WellFormedness.Statement (.sbcAbs a) := ⟨rfl, rfl, rfl⟩
theorem WellFormedness.incAbs (a : Word) : WellFormedness.Statement (.incAbs a) := ⟨rfl, rfl, rfl⟩
theorem WellFormedness.iscAbs (a : Word) : WellFormedness.Statement (.iscAbs a) := ⟨rfl, rfl, rfl⟩
theorem WellFormedness.beq (off : Byte) : WellFormedness.Statement (.beq off) := ⟨rfl, rfl, rfl⟩
theorem WellFormedness.sbcIzy (b : Byte) : WellFormedness.Statement (.sbcIzy b) := ⟨rfl, rfl, rfl⟩
theorem WellFormedness.iscIzy (b : Byte) : WellFormedness.Statement (.iscIzy b) := ⟨rfl, rfl, rfl⟩
theorem WellFormedness.sbcZpx (b : Byte) : WellFormedness.Statement (.sbcZpx b) := ⟨rfl, rfl, rfl⟩
theorem WellFormedness.incZpx (b : Byte) : WellFormedness.Statement (.incZpx b) := ⟨rfl, rfl, rfl⟩
theorem WellFormedness.iscZpx (b : Byte) : WellFormedness.Statement (.iscZpx b) := ⟨rfl, rfl, rfl⟩
theorem WellFormedness.sed : WellFormedness.Statement (.sed) := ⟨rfl, rfl, rfl⟩
theorem WellFormedness.sbcAbsy (a : Word) : WellFormedness.Statement (.sbcAbsy a) := ⟨rfl, rfl, rfl⟩
theorem WellFormedness.iscAbsy (a : Word) : WellFormedness.Statement (.iscAbsy a) := ⟨rfl, rfl, rfl⟩
theorem WellFormedness.sbcAbsx (a : Word) : WellFormedness.Statement (.sbcAbsx a) := ⟨rfl, rfl, rfl⟩
theorem WellFormedness.incAbsx (a : Word) : WellFormedness.Statement (.incAbsx a) := ⟨rfl, rfl, rfl⟩
theorem WellFormedness.iscAbsx (a : Word) : WellFormedness.Statement (.iscAbsx a) := ⟨rfl, rfl, rfl⟩

end Sys2Proof.Laws
end

