-- ==== Sys2Proof/Laws/Step.lean ====
section
/-! SUPPORT. The step of the machine, said once: what a step that answers a next state can have been, what the
boundary, the dots and an OAMDMA change, and that each of them keeps the invariant. -/
namespace Sys2Proof.Machine

open Sys2Proof.Laws

/-! ### What the dots change -/

/-- Dots change only the NMI latch and what is behind the bus; of that, not the listed memory and not OAM. -/
theorem State.runDots_keeps (n : Nat) (s : State) :
    State.runDots n s = { s with nmiLatch := (State.runDots n s).nmiLatch,
                                 bus := (State.runDots n s).bus } ∧
    (State.runDots n s).bus.mem = s.bus.mem ∧ (State.runDots n s).bus.ppu.oam = s.bus.ppu.oam ∧
    (s.nmiLatch = true → (State.runDots n s).nmiLatch = true) := by
  induction n generalizing s with
  | zero => exact ⟨rfl, rfl, rfl, id⟩
  | succ n ih =>
    have ho : s.stepDot.bus.ppu.oam = s.bus.ppu.oam := by
      simp only [State.stepDot, Bus.stepDot, Ppu.stepDot, Ppu.vblankEvents, Ppu.renderEvents,
        Ppu.nextPosition]
      repeat' split
      all_goals rfl
    obtain ⟨h1, h2, h3, h4⟩ := ih s.stepDot
    refine ⟨?_, h2.trans rfl, h3.trans ho, fun h => h4 (by simp [State.stepDot, h])⟩
    rw [State.runDots, h1]
    rfl

/-- The dots after a step change only the NMI latch, the PAL budget and what is behind the bus. -/
theorem State.advancePpu_keeps (s : State) :
    s.advancePpu = { s with nmiLatch := s.advancePpu.nmiLatch, dotBudget := s.advancePpu.dotBudget,
                            bus := s.advancePpu.bus } ∧
    s.advancePpu.bus.mem = s.bus.mem ∧ s.advancePpu.bus.ppu.oam = s.bus.ppu.oam ∧
    (s.nmiLatch = true → s.advancePpu.nmiLatch = true) := by
  obtain ⟨h1, h2, h3, h4⟩ := State.runDots_keeps (dotsOf s.launch.region s.dotBudget s.stepCycles).1
    { s with dotBudget := (dotsOf s.launch.region s.dotBudget s.stepCycles).2 }
  refine ⟨?_, h2, h3, h4⟩
  simp only [State.advancePpu]
  rw [h1]

/-! ### What an OAMDMA changes -/

/-- The copies of an OAMDMA change only what is behind the bus, and no listed byte of memory. -/
theorem State.dmaCopy_keeps (page : Byte) (n : Nat) (s : State) :
    State.dmaCopy page n s = { s with bus := (State.dmaCopy page n s).bus } ∧
    (State.dmaCopy page n s).bus.mem = s.bus.mem := by
  induction n generalizing s with
  | zero => exact ⟨rfl, rfl⟩
  | succ n ih =>
    have hm : ∀ (b : Bus) (v : Byte), (b.write 0x2004 v).mem = b.mem := fun b v =>
      b.write_mem_device (by decide) (by decide) v
    obtain ⟨h1, h2⟩ := ih ((s.read (mkWord page (BitVec.ofNat 8 (255 - n)))).2.write 0x2004
      (s.read (mkWord page (BitVec.ofNat 8 (255 - n)))).1)
    refine ⟨?_, h2.trans ?_⟩
    · rw [State.dmaCopy, h1]; rfl
    · exact (hm _ _).trans (Bus.read_mem _ _)

/-- An OAMDMA changes only the stall and what is behind the bus, and no listed byte of memory. -/
theorem State.oamDma_keeps (s : State) :
    s.oamDma = { s with stall := s.oamDma.stall, bus := s.oamDma.bus } ∧
    s.oamDma.bus.mem = s.bus.mem := by
  unfold State.oamDma
  split
  · exact ⟨rfl, rfl⟩
  · rename_i page _
    generalize (256 : Nat) = n
    obtain ⟨h1, h2⟩ := State.dmaCopy_keeps page n { s with bus := { s.bus with dmaPage := none } }
    refine ⟨?_, h2⟩
    simp only
    rw [h1]

/-! ### The boundary -/

/-- What arrives at a boundary changes only the pending reset and the devices. -/
theorem State.beginStep_keeps (s : State) :
    s.beginStep = { s with resetPending := s.beginStep.resetPending, inputs := s.inputs.tail,
                           stepCycles := 0, bus := s.beginStep.bus } ∧
    s.beginStep.bus.mem = s.bus.mem ∧ s.beginStep.bus.ppu = s.bus.ppu ∧
    s.beginStep.bus.dmaPage = none ∧ s.beginStep.bus.draws = s.bus.draws := by
  have key : ∀ (es : List HostEvent) (t : State),
      es.foldl (fun t e => HostEvent.apply e t) t =
        { t with resetPending := (es.foldl (fun t e => HostEvent.apply e t) t).resetPending,
                 bus := (es.foldl (fun t e => HostEvent.apply e t) t).bus } ∧
      (es.foldl (fun t e => HostEvent.apply e t) t).bus.mem = t.bus.mem ∧
      (es.foldl (fun t e => HostEvent.apply e t) t).bus.ppu = t.bus.ppu ∧
      (es.foldl (fun t e => HostEvent.apply e t) t).bus.draws = t.bus.draws := by
    intro es
    induction es with
    | nil => exact fun t => ⟨rfl, rfl, rfl, rfl⟩
    | cons e es ih =>
      intro t
      obtain ⟨h1, h2, h3, h4⟩ := ih (HostEvent.apply e t)
      rw [List.foldl_cons]
      refine ⟨?_, h2.trans ?_, h3.trans ?_, h4.trans ?_⟩
      · rw [h1]; cases e <;> rfl
      all_goals cases e <;> rfl
  obtain ⟨h1, h2, h3, h4⟩ := key s.arriving s
  refine ⟨?_, h2, h3, rfl, h4⟩
  simp only [State.beginStep]
  rw [h1]

/-! ### The supplied cartridge and the place in the frame -/

@[simp] theorem State.runDots_cart (n : Nat) (s : State) : (State.runDots n s).bus.cart = s.bus.cart := by
  induction n generalizing s with
  | zero => rfl
  | succ n ih => exact (ih s.stepDot).trans rfl

@[simp] theorem State.advancePpu_cart (s : State) : s.advancePpu.bus.cart = s.bus.cart :=
  State.runDots_cart ..

/-- The copies of an OAMDMA move neither the supplied cartridge nor the PPU's place in its frame. -/
theorem State.dmaCopy_steady (page : Byte) (n : Nat) (s : State) :
    s.bus.Steady (State.dmaCopy page n s).bus := by
  induction n generalizing s with
  | zero => exact .refl _
  | succ n ih =>
    let r := s.read (mkWord page (BitVec.ofNat 8 (255 - n)))
    have h1 : s.bus.Steady r.2.bus := Bus.Steady.read s.bus _
    have h2 : r.2.bus.Steady (r.2.write 0x2004 r.1).bus := Bus.Steady.write r.2.bus 0x2004 r.1
    exact (h1.trans h2).trans (ih (r.2.write 0x2004 r.1))

theorem State.oamDma_steady (s : State) : s.bus.Steady s.oamDma.bus := by
  unfold State.oamDma
  split
  · exact .refl _
  · rename_i page _
    generalize (256 : Nat) = n
    have h := State.dmaCopy_steady page n { s with bus := { s.bus with dmaPage := none } }
    exact ⟨h.cart, h.line, h.dot, h.frame⟩

@[simp] theorem State.beginStep_cart (s : State) : s.beginStep.bus.cart = s.bus.cart := by
  have key : ∀ (es : List HostEvent) (t : State),
      (es.foldl (fun t e => HostEvent.apply e t) t).bus.cart = t.bus.cart := by
    intro es
    induction es with
    | nil => exact fun t => rfl
    | cons e es ih => exact fun t => (ih _).trans (by cases e <;> rfl)
  exact key s.arriving s

@[simp] theorem State.resetSequence_cart (s : State) : s.resetSequence.bus.cart = s.bus.cart := by
  simp [State.resetSequence, s.bus.consoleReset_keeps.2.1]

@[simp] theorem State.serviceInterrupt_cart (s : State) : s.serviceInterrupt.bus.cart = s.bus.cart := by
  unfold State.serviceInterrupt
  split
  · simp [State.enterNmi_eq, State.entered, Bus.pushThree]
  · split
    · simp [State.enterIrq_eq, State.entered, Bus.pushThree]
    · rfl

theorem State.fetchInstr_steady (s : State) : s.bus.Steady s.fetchInstr.2.bus := by
  unfold State.fetchInstr
  simp only
  split
  · exact .read ..
  · exact (Bus.Steady.read ..).trans (.read ..)
  · exact ((Bus.Steady.read ..).trans (.read ..)).trans (.read ..)

/-! ### A step that answers a next state -/

/-- Everything a step that answers a next state can have been: an instruction, after a reset or an interrupt
or nothing, or a stall step (40_execution_cycle.md R120). -/
theorem step_next {s t : State} (h : step s = .next t) :
    s.mark = none ∧ s.quits = false ∧
    ((∃ u, exec u.fetchInstr.1 u.fetchInstr.2 = .next t ∧ t.jammed = true ∧
        (u = s.beginStep.resetSequence ∨ u = s.beginStep.serviceInterrupt)) ∨
     (∃ u v, exec u.fetchInstr.1 u.fetchInstr.2 = .next v ∧ v.jammed = false ∧ t = v.oamDma.advancePpu ∧
        (u = s.beginStep.resetSequence ∨ u = s.beginStep.serviceInterrupt)) ∨
     (0 < s.beginStep.stall ∧ t = s.beginStep.stallStep.advancePpu)) := by
  have run : ∀ u, runInstruction u = .next t →
      (u = s.beginStep.resetSequence ∨ u = s.beginStep.serviceInterrupt) →
      (∃ u, exec u.fetchInstr.1 u.fetchInstr.2 = .next t ∧ t.jammed = true ∧
        (u = s.beginStep.resetSequence ∨ u = s.beginStep.serviceInterrupt)) ∨
      (∃ u v, exec u.fetchInstr.1 u.fetchInstr.2 = .next v ∧ v.jammed = false ∧ t = v.oamDma.advancePpu ∧
        (u = s.beginStep.resetSequence ∨ u = s.beginStep.serviceInterrupt)) := by
    intro u hu hor
    unfold runInstruction at hu
    split at hu <;> cases hu
    rename_i v hv
    rw [State.finishStep]
    split
    · rename_i hj; exact .inl ⟨u, hv, hj, hor⟩
    · rename_i hj; exact .inr ⟨u, v, hv, by simpa using hj, rfl, hor⟩
  rw [step, machineStep] at h
  split at h
  · rename_i m _
    cases m <;> cases h
  · rename_i hm
    split at h
    · cases h
    · rename_i hq
      refine ⟨hm, by simpa using hq, ?_⟩
      unfold turn at h
      split at h
      · exact (run _ h (.inl rfl)).imp id .inl
      · split at h
        · cases h
        · split at h
          · rename_i hs
            cases h
            exact .inr (.inr ⟨hs, rfl⟩)
          · exact (run _ h (.inr rfl)).imp id .inl

/-- Fetching an instruction changes nothing but what its reads do to the bus, and no listed byte. -/
theorem State.fetchInstr_keeps (s : State) :
    s.fetchInstr.2 = { s with bus := s.fetchInstr.2.bus } ∧ s.fetchInstr.2.bus.mem = s.bus.mem := by
  unfold State.fetchInstr
  simp only
  split <;> refine ⟨rfl, ?_⟩ <;> simp

/-! ### The invariant -/

theorem State.Inv.of_fetchInstr {s : State} (h : s.Inv) : s.fetchInstr.2.Inv := by
  unfold State.fetchInstr
  simp only
  split
  · exact h.of_eq (h.bus.of_read _) rfl rfl rfl
  · exact h.of_eq ((h.bus.of_read _).of_read _) rfl rfl rfl
  · exact h.of_eq (((h.bus.of_read _).of_read _).of_read _) rfl rfl rfl

theorem State.Inv.of_resetSequence {s : State} (h : s.Inv) : s.resetSequence.Inv :=
  ⟨(h.bus.of_consoleReset.of_read _).of_read _, rfl, h.budget, Nat.zero_le _⟩

theorem State.Inv.of_runDots {s : State} (n : Nat) (h : s.Inv) : (State.runDots n s).Inv := by
  induction n generalizing s with
  | zero => exact h
  | succ n ih =>
    apply ih
    have hb := h.bus.of_stepDot
    exact ⟨⟨hb.memCanonical, hb.memKeys, hb.oamCanonical, hb.oamKeys, hb.line, hb.dot⟩, h.unused, h.budget,
      h.stall⟩

theorem State.Inv.of_advancePpu {s : State} (h : s.Inv) : s.advancePpu.Inv := by
  apply State.Inv.of_runDots
  refine ⟨h.bus, h.unused, ?_, h.stall⟩
  have := h.budget
  unfold dotsOf
  split
  · exact this
  · exact Nat.mod_lt _ (by omega)

theorem State.Inv.of_dmaCopy {s : State} (page : Byte) (n : Nat) (h : s.Inv) :
    (State.dmaCopy page n s).Inv := by
  induction n generalizing s with
  | zero => exact h
  | succ n ih => exact ih ((h.of_read _).of_write _ _)

theorem State.Inv.of_oamDma {s : State} (h : s.Inv) : s.oamDma.Inv := by
  unfold State.oamDma
  split
  · exact h
  · rename_i page _
    have h0 : State.Inv { s with bus := { s.bus with dmaPage := none } } :=
      h.of_eq ⟨h.bus.memCanonical, h.bus.memKeys, h.bus.oamCanonical, h.bus.oamKeys, h.bus.line, h.bus.dot⟩
        rfl rfl rfl
    generalize (256 : Nat) = n
    have h1 := h0.of_dmaCopy page n
    refine ⟨h1.bus, h1.unused, h1.budget, ?_⟩
    simp only
    omega

theorem State.Inv.of_beginStep {s : State} (h : s.Inv) : s.beginStep.Inv := by
  obtain ⟨h1, h2, h3, -, -⟩ := s.beginStep_keeps
  refine h.of_eq ?_ (by rw [h1]) (by rw [h1]) (by rw [h1])
  exact ⟨h2 ▸ h.bus.memCanonical, h2 ▸ h.bus.memKeys, h3 ▸ h.bus.oamCanonical, h3 ▸ h.bus.oamKeys,
    h3 ▸ h.bus.line, h3 ▸ h.bus.dot⟩

end Sys2Proof.Machine
end

