-- ==== Sys2Proof/Tests/Slice0.lean ====
section
/-! SUPPORT. Tests: the well-formedness checks refuse what they should, hand-encoded words decode, one step per
worked example of the spec, and for every statement with hypotheses a state and operands that meet them. -/
namespace Sys2Proof.Tests

open Sys2Proof.Machine Sys2Proof.Laws

/-! ### WellFormed: what each check refuses -/

/-- 41_load_store_transfer.md R153: STA has no immediate form. -/
theorem test_form_refused : (Form.mk .sta (.imm 0x00)).wellFormed = false := by decide

/-- 30_encoding.md R102: an opcode byte that is none of the constructor's rows. -/
theorem test_opcode_refused :
    (Instr.jam 0x03).wellFormed = false ∧ (Instr.nopImplied 0xEA).wellFormed = false ∧
    (Instr.nopImm 0x8B 0).wellFormed = false ∧ (Instr.nopZp 0x24 0).wellFormed = false ∧
    (Instr.nopZpx 0xB4 0).wellFormed = false ∧ (Instr.nopAbsx 0x9C 0).wellFormed = false ∧
    (Instr.anc 0x4B 0).wellFormed = false := by decide

/-- Both checks pass on instructions of the table. -/
theorem test_wellFormed_accepted :
    (Instr.ldaImm 0x80).wellFormed = true ∧ (Instr.jam 0xF2).wellFormed = true ∧
    (Instr.nopAbsx 0xFC 0xFFFF).wellFormed = true ∧ (Instr.anc 0x2B 0).wellFormed = true := by decide

/-! ### Decoding: words written out from 30_encoding.md R81 and R102 -/

/-- Every opcode byte, with zero operand bytes, decodes to a well-formed instruction whose opcode it is. -/
theorem test_all_opcodes :
    (List.range 256).all (fun n =>
      match decodeTableWord 24 n with
      | some i => i.wellFormed && decide (i.opcode.toNat = n)
      | none => false) = true := by decide +kernel

/-- Loads and stores: LDA ($20,X); STY $10,X; LDX $1234,Y. -/
theorem test_decode_load_store :
    decodeTableWord 16 0x20A1 = some (.ldaIzx 0x20) ∧ decodeTableWord 16 0x1094 = some (.styZpx 0x10) ∧
    decodeTableWord 24 0x1234BE = some (.ldxAbsy 0x1234) := by decide

/-- Arithmetic: ADC #$50; CMP ($10),Y; DEC $02FF,X; BIT $2C00. -/
theorem test_decode_alu :
    decodeTableWord 16 0x5069 = some (.adcImm 0x50) ∧ decodeTableWord 16 0x10D1 = some (.cmpIzy 0x10) ∧
    decodeTableWord 24 0x02FFDE = some (.decAbsx 0x02FF) ∧
    decodeTableWord 24 0x2C002C = some (.bitAbs 0x2C00) := by decide

/-- Shifts: ROL A; LSR $0300. -/
theorem test_decode_shift :
    decodeTableWord 8 0x2A = some .rolAcc ∧ decodeTableWord 24 0x03004E = some (.lsrAbs 0x0300) := by decide

/-- Stack and flags: PHA; CLV; NOP. -/
theorem test_decode_stack :
    decodeTableWord 8 0x48 = some .pha ∧ decodeTableWord 8 0xB8 = some .clv ∧
    decodeTableWord 8 0xEA = some .nop := by decide

/-- Control: JSR $E000; BVS with offset $80; RTI. -/
theorem test_decode_control :
    decodeTableWord 24 0xE00020 = some (.jsr 0xE000) ∧ decodeTableWord 16 0x8070 = some (.bvs 0x80) ∧
    decodeTableWord 8 0x40 = some .rti := by decide

/-- Unofficial: SLO ($10),Y; SBC $EB; NOP $80; JAM $B2; LAS $0200,Y. -/
theorem test_decode_unofficial :
    decodeTableWord 16 0x1013 = some (.sloIzy 0x10) ∧ decodeTableWord 16 0x01EB = some (.sbcEB 0x01) ∧
    decodeTableWord 16 0x5580 = some (.nopImm 0x80 0x55) ∧ decodeTableWord 8 0xB2 = some (.jam 0xB2) ∧
    decodeTableWord 24 0x0200BB = some (.las 0x0200) := by decide

/-- A byte sequence that ends before the instruction does is refused by name. -/
theorem test_decode_truncated :
    decode [] = .error .noOpcode ∧ decode [0xA9] = .error (.operandsMissing 0xA9) ∧
    decode [0x4C, 0x00] = .error (.operandsMissing 0x4C) := ⟨rfl, rfl, rfl⟩

/-! ### One step on a small state

The start state of 95_test_vectors.md L2: SP = $FD, P = $24, the other registers $00, no event pending. -/

/-- Bytes of plain memory set one by one. -/
def poke (l : List (Word × Byte)) (s : State) : State := l.foldl (fun s c => s.place c.1 c.2) s

/-- The start state with code at PC. -/
def code (pc : Word) (bs : List Byte) : State :=
  State.placeBytes bs pc { State.reset with resetPending := false, pc := pc }

/-- A, X, Y, SP, P, PC and c after a step, then the bytes of plain memory asked for. -/
def ends (r : Result) (mem : List Word) : Option (List Nat) :=
  match r with
  | .next s =>
    some ([s.a.toNat, s.x.toNat, s.y.toNat, s.sp.toNat, s.p.toByte.toNat, s.pc.toNat, s.stepCycles]
      ++ mem.map fun a => ((s.peek a).map (·.toNat)).getD 999)
  | .fault _ => none
  | .refused _ => none

/-- Something of the state after a step. -/
def got {α : Type} (r : Result) (f : State → α) : Option α :=
  match r with
  | .next s => some (f s)
  | .fault _ => none
  | .refused _ => none

/-- 95_test_vectors.md L2.1: LDA # zero. -/
theorem test_lda_L2_1 : ends (step { code 0xC000 [0xA9, 0x00] with a := 0x55 }) [] =
    some [0x00, 0x00, 0x00, 0xFD, 0x26, 0xC002, 2] := by decide

/-- 95_test_vectors.md L2.7: LDA (zp),Y pointer wrap, cross. -/
theorem test_lda_L2_7 :
    ends (step { poke [(0x00FF, 0xF8), (0x0000, 0x02), (0x0308, 0x5A)]
      (code 0xC000 [0xB1, 0xFF]) with
      y := 0x10 }) [] =
      some [0x5A, 0x00, 0x10, 0xFD, 0x24, 0xC002, 6] := by decide

/-- 95_test_vectors.md L2.8: LDX zp,Y. -/
theorem test_ldx_L2_8 : ends (step { poke [(0x0005, 0x01)] (code 0xC000 [0xB6, 0x80]) with y := 0x85 }) [] =
    some [0x00, 0x01, 0x85, 0xFD, 0x24, 0xC002, 4] := by decide

/-- 95_test_vectors.md L2.9: LDY abs,X cross. -/
theorem test_ldy_L2_9 :
    ends (step { poke [(0x0800, 0x00)] (code 0xC000 [0xBC, 0x80, 0x07]) with x := 0x80 }) [] =
      some [0x00, 0x80, 0x00, 0xFD, 0x26, 0xC003, 5] := by decide

/-- 95_test_vectors.md L2.10: STA abs,X no penalty on cross. -/
theorem test_sta_L2_10 : ends (step { code 0xC000 [0x9D, 0xFF, 0x02] with a := 0x3C, x := 0x01 }) [0x0300] =
    some [0x3C, 0x01, 0x00, 0xFD, 0x24, 0xC003, 5, 0x3C] := by decide

/-- 95_test_vectors.md L2.12: STX zp,Y wraps. -/
theorem test_stx_L2_12 : ends (step { code 0xC000 [0x96, 0xFF] with x := 0x11, y := 0x02 }) [0x0001] =
    some [0x00, 0x11, 0x02, 0xFD, 0x24, 0xC002, 4, 0x11] := by decide

/-- 95_test_vectors.md L2.13: STA to mirror. -/
theorem test_sta_L2_13 : ends (step { code 0xC000 [0x8D, 0x05, 0x18] with a := 0x66 }) [0x0005] =
    some [0x66, 0x00, 0x00, 0xFD, 0x24, 0xC003, 4, 0x66] := by decide

/-- 95_test_vectors.md L2.14: TSX. -/
theorem test_tsx_L2_14 : ends (step { code 0xC000 [0xBA] with sp := 0x00 }) [] =
    some [0x00, 0x00, 0x00, 0x00, 0x26, 0xC001, 2] := by decide

/-- 95_test_vectors.md L2.15: TXS no flags. -/
theorem test_txs_L2_15 : ends (step { code 0xC000 [0x9A] with x := 0x00, p := .ofByte 0xA4 }) [] =
    some [0x00, 0x00, 0x00, 0x00, 0xA4, 0xC001, 2] := by decide

/-- 95_test_vectors.md L2.16: ADC carry out. -/
theorem test_adc_L2_16 : ends (step { code 0xC000 [0x69, 0x01] with a := 0xFF, p := .ofByte 0x24 }) [] =
    some [0x00, 0x00, 0x00, 0xFD, 0x27, 0xC002, 2] := by decide

/-- 95_test_vectors.md L2.17: ADC with carry in, V from two negatives. -/
theorem test_adc_L2_17 : ends (step { code 0xC000 [0x69, 0x80] with a := 0x80, p := .ofByte 0x25 }) [] =
    some [0x01, 0x00, 0x00, 0xFD, 0x65, 0xC002, 2] := by decide

/-- 95_test_vectors.md L2.20: SBC C=0 subtracts one more. -/
theorem test_sbc_L2_20 : ends (step { code 0xC000 [0xE9, 0x00] with a := 0x10, p := .ofByte 0x24 }) [] =
    some [0x0F, 0x00, 0x00, 0xFD, 0x25, 0xC002, 2] := by decide

/-- 95_test_vectors.md L2.21: SBC overflow pos-neg. -/
theorem test_sbc_L2_21 : ends (step { code 0xC000 [0xE9, 0xFF] with a := 0x7F, p := .ofByte 0x25 }) [] =
    some [0x80, 0x00, 0x00, 0xFD, 0xE4, 0xC002, 2] := by decide

/-- 95_test_vectors.md L2.22: AND abs,Y cross. -/
theorem test_and_L2_22 :
    ends (step { poke [(0x0100, 0x3C)] (code 0xC000 [0x39, 0xFF, 0x00]) with a := 0xF0, y := 0x01 }) [] =
      some [0x30, 0x00, 0x01, 0xFD, 0x24, 0xC003, 5] := by decide

/-- 95_test_vectors.md L2.23: EOR (zp,X). -/
theorem test_eor_L2_23 :
    ends (step { poke [(0x0020, 0x00), (0x0021, 0x03), (0x0300, 0xFF)]
      (code 0xC000 [0x41, 0x20]) with
      a := 0x0F, x := 0x00 }) [] =
      some [0xF0, 0x00, 0x00, 0xFD, 0xA4, 0xC002, 6] := by decide

/-- 95_test_vectors.md L2.25: CMP signed wrap. -/
theorem test_cmp_L2_25 : ends (step { code 0xC000 [0xC9, 0x01] with a := 0x80 }) [] =
    some [0x80, 0x00, 0x00, 0xFD, 0x25, 0xC002, 2] := by decide

/-- 95_test_vectors.md L2.26: CMP keeps V. -/
theorem test_cmp_L2_26 : ends (step { code 0xC000 [0xC9, 0x00] with a := 0x00, p := .ofByte 0x64 }) [] =
    some [0x00, 0x00, 0x00, 0xFD, 0x67, 0xC002, 2] := by decide

/-- 95_test_vectors.md L2.27: BIT abs, Z=0. -/
theorem test_bit_L2_27 :
    ends (step { poke [(0x0300, 0x3F)] (code 0xC000 [0x2C, 0x00, 0x03]) with a := 0xFF }) [] =
      some [0xFF, 0x00, 0x00, 0xFD, 0x24, 0xC003, 4] := by decide

/-- 95_test_vectors.md L2.28: INC wraps. -/
theorem test_inc_L2_28 : ends (step (poke [(0x0010, 0xFF)] (code 0xC000 [0xE6, 0x10]))) [0x0010] =
    some [0x00, 0x00, 0x00, 0xFD, 0x26, 0xC002, 5, 0x00] := by decide

/-- 95_test_vectors.md L2.29: DEC abs,X no penalty. -/
theorem test_dec_L2_29 :
    ends (step { poke [(0x0300, 0x00)] (code 0xC000 [0xDE, 0xFF, 0x02]) with x := 0x01 }) [0x0300] =
      some [0x00, 0x01, 0x00, 0xFD, 0xA4, 0xC003, 7, 0xFF] := by decide

/-- 95_test_vectors.md L2.30: ASL zp. -/
theorem test_asl_L2_30 : ends (step (poke [(0x0010, 0x80)] (code 0xC000 [0x06, 0x10]))) [0x0010] =
    some [0x00, 0x00, 0x00, 0xFD, 0x27, 0xC002, 5, 0x00] := by decide

/-- 95_test_vectors.md L2.31: LSR A to zero. -/
theorem test_lsr_L2_31 : ends (step { code 0xC000 [0x4A] with a := 0x01 }) [] =
    some [0x00, 0x00, 0x00, 0xFD, 0x27, 0xC001, 2] := by decide

/-- 95_test_vectors.md L2.32: ROL abs,X. -/
theorem test_rol_L2_32 :
    ends (step { poke [(0x0302, 0x80)]
      (code 0xC000 [0x3E, 0x00, 0x03]) with
      x := 0x02, p := .ofByte 0x25 }) [0x0302] =
      some [0x00, 0x02, 0x00, 0xFD, 0x25, 0xC003, 7, 0x01] := by decide

/-- 95_test_vectors.md L2.33: ROR zp, C in. -/
theorem test_ror_L2_33 :
    ends (step { poke [(0x0010, 0x00)] (code 0xC000 [0x66, 0x10]) with p := .ofByte 0x25 }) [0x0010] =
      some [0x00, 0x00, 0x00, 0xFD, 0xA4, 0xC002, 5, 0x80] := by decide

/-- 95_test_vectors.md L2.34: PHP with SP=$00 wraps. -/
theorem test_php_L2_34 : ends (step { code 0xC000 [0x08] with sp := 0x00, p := .ofByte 0xE7 }) [0x0100] =
    some [0x00, 0x00, 0x00, 0xFF, 0xE7, 0xC001, 3, 0xF7] := by decide

/-- 95_test_vectors.md L2.35: PLA from SP=$FF wraps. -/
theorem test_pla_L2_35 : ends (step { poke [(0x0100, 0x80)] (code 0xC000 [0x68]) with sp := 0xFF }) [] =
    some [0x80, 0x00, 0x00, 0x00, 0xA4, 0xC001, 4] := by decide

/-- 95_test_vectors.md L2.36: PLP forces B=0, U=1. -/
theorem test_plp_L2_36 : ends (step { poke [(0x01FD, 0x10)] (code 0xC000 [0x28]) with sp := 0xFC }) [] =
    some [0x00, 0x00, 0x00, 0xFD, 0x20, 0xC001, 4] := by decide

/-- 95_test_vectors.md L2.37: PLP sets I and D. -/
theorem test_plp_L2_37 :
    ends (step { poke [(0x01FD, 0x0C)] (code 0xC000 [0x28]) with sp := 0xFC, p := .ofByte 0x20 }) [] =
      some [0x00, 0x00, 0x00, 0xFD, 0x2C, 0xC001, 4] := by decide

/-- 95_test_vectors.md L2.38: SEI. -/
theorem test_sei_L2_38 : ends (step { code 0xC000 [0x78] with p := .ofByte 0x20 }) [] =
    some [0x00, 0x00, 0x00, 0xFD, 0x24, 0xC001, 2] := by decide

/-- 95_test_vectors.md L2.39: CLV. -/
theorem test_clv_L2_39 : ends (step { code 0xC000 [0xB8] with p := .ofByte 0x64 }) [] =
    some [0x00, 0x00, 0x00, 0xFD, 0x24, 0xC001, 2] := by decide

/-- 95_test_vectors.md L2.40: BNE not taken. -/
theorem test_bne_L2_40 : ends (step { code 0xC000 [0xD0, 0x10] with p := .ofByte 0x26 }) [] =
    some [0x00, 0x00, 0x00, 0xFD, 0x26, 0xC002, 2] := by decide

/-- 95_test_vectors.md L2.41: BEQ backward, same page. -/
theorem test_beq_L2_41 : ends (step { code 0xC080 [0xF0, 0xF0] with p := .ofByte 0x26 }) [] =
    some [0x00, 0x00, 0x00, 0xFD, 0x26, 0xC072, 3] := by decide

/-- 95_test_vectors.md L2.42: BMI taken, cross forward. -/
theorem test_bmi_L2_42 : ends (step { code 0xC0F0 [0x30, 0x7F] with p := .ofByte 0xA4 }) [] =
    some [0x00, 0x00, 0x00, 0xFD, 0xA4, 0xC171, 4] := by decide

/-- 95_test_vectors.md L2.43: BCS branch at $FFFD wraps PC. -/
theorem test_bcs_L2_43 : ends (step { code 0xFFFD [0xB0, 0x02] with p := .ofByte 0x25 }) [] =
    some [0x00, 0x00, 0x00, 0xFD, 0x25, 0x0001, 4] := by decide

/-- 95_test_vectors.md L2.44: JMP ($C0FF) bug. -/
theorem test_jmp_L2_44 :
    ends (step (poke [(0xC0FF, 0x00), (0xC000, 0x80), (0xC100, 0x90)] (code 0xD000 [0x6C, 0xFF, 0xC0]))) [] =
      some [0x00, 0x00, 0x00, 0xFD, 0x24, 0x8000, 5] := by decide

/-- 95_test_vectors.md L2.45: JSR at $C0FE (return addr crosses page). -/
theorem test_jsr_L2_45 : ends (step (code 0xC0FE [0x20, 0x00, 0xE0])) [0x01FD, 0x01FC] =
    some [0x00, 0x00, 0x00, 0xFB, 0x24, 0xE000, 6, 0xC1, 0x00] := by decide

/-- 95_test_vectors.md L2.46: RTS from SP=$FE wraps pull. -/
theorem test_rts_L2_46 :
    ends (step { poke [(0x01FF, 0xFF), (0x0100, 0xBF)] (code 0xC000 [0x60]) with sp := 0xFE }) [] =
      some [0x00, 0x00, 0x00, 0x00, 0x24, 0xC000, 6] := by decide

/-- 95_test_vectors.md L2.47: RTI keeps pulled D and V, U forced. -/
theorem test_rti_L2_47 :
    ends (step { poke [(0x01FB, 0x48), (0x01FC, 0x00), (0x01FD, 0x90)]
      (code 0xC000 [0x40]) with
      sp := 0xFA }) [] =
      some [0x00, 0x00, 0x00, 0xFD, 0x68, 0x9000, 6] := by decide

/-- 95_test_vectors.md L2.48: BRK. -/
theorem test_brk_L2_48 :
    ends (step { poke [(0xFFFE, 0x00), (0xFFFF, 0xE0)]
      (code 0xC000 [0x00, 0xEA]) with
      p := .ofByte 0x21 }) [0x01FD, 0x01FC, 0x01FB] =
      some [0x00, 0x00, 0x00, 0xFA, 0x25, 0xE000, 7, 0xC0, 0x02, 0x31] := by decide

/-- 95_test_vectors.md L2.49: SLO abs,Y. -/
theorem test_slo_L2_49 :
    ends (step { poke [(0x0301, 0x40)] (code 0xC000 [0x1B, 0x00, 0x03]) with y := 0x01, a := 0x00 }) [0x0301] =
      some [0x80, 0x00, 0x01, 0xFD, 0xA4, 0xC003, 7, 0x80] := by decide

/-- 95_test_vectors.md L2.50: RRA carry from rotate. -/
theorem test_rra_L2_50 :
    ends (step { poke [(0x0010, 0x01)]
      (code 0xC000 [0x67, 0x10]) with
      a := 0xFF, p := .ofByte 0x24 }) [0x0010] =
      some [0x00, 0x00, 0x00, 0xFD, 0x27, 0xC002, 5, 0x00] := by decide

/-- 95_test_vectors.md L2.51: ISC (zp),Y. -/
theorem test_isc_L2_51 :
    ends (step { poke [(0x0020, 0xFF), (0x0021, 0x02), (0x0300, 0x05)]
      (code 0xC000 [0xF3, 0x20]) with
      a := 0x05, y := 0x01, p := .ofByte 0x25 }) [0x0300] =
      some [0xFF, 0x00, 0x01, 0xFD, 0xA4, 0xC002, 8, 0x06] := by decide

/-- 95_test_vectors.md L2.52: DCP wraps $00 to $FF, C=0. -/
theorem test_dcp_L2_52 :
    ends (step { poke [(0x0010, 0x00)] (code 0xC000 [0xC7, 0x10]) with a := 0x00 }) [0x0010] =
      some [0x00, 0x00, 0x00, 0xFD, 0x24, 0xC002, 5, 0xFF] := by decide

/-- 95_test_vectors.md L2.53: LAX (zp),Y with cross. -/
theorem test_lax_L2_53 :
    ends (step { poke [(0x0010, 0xFF), (0x0011, 0x02), (0x0300, 0x00)]
      (code 0xC000 [0xB3, 0x10]) with
      y := 0x01 }) [] =
      some [0x00, 0x00, 0x01, 0xFD, 0x26, 0xC002, 6] := by decide

/-- 95_test_vectors.md L2.54: SAX zp,Y. -/
theorem test_sax_L2_54 :
    ends (step { code 0xC000 [0x97, 0xFF] with a := 0x0F, x := 0xFC, y := 0x02 }) [0x0001] =
      some [0x0F, 0xFC, 0x02, 0xFD, 0x24, 0xC002, 4, 0x0C] := by decide

/-- 95_test_vectors.md L2.55: ANC clears C. -/
theorem test_anc_L2_55 : ends (step { code 0xC000 [0x2B, 0x7F] with a := 0xFF, p := .ofByte 0x25 }) [] =
    some [0x7F, 0x00, 0x00, 0xFD, 0x24, 0xC002, 2] := by decide

/-- 95_test_vectors.md L2.56: ARR C=0 in. -/
theorem test_arr_L2_56 : ends (step { code 0xC000 [0x6B, 0xC0] with a := 0xC0, p := .ofByte 0x24 }) [] =
    some [0x60, 0x00, 0x00, 0xFD, 0x25, 0xC002, 2] := by decide

/-- 95_test_vectors.md L2.57: AXS no borrow. -/
theorem test_axs_L2_57 : ends (step { code 0xC000 [0xCB, 0x10] with a := 0x3F, x := 0x30 }) [] =
    some [0x3F, 0x20, 0x00, 0xFD, 0x25, 0xC002, 2] := by decide

/-- 95_test_vectors.md L2.58: NOP zp does not read. -/
theorem test_nop_L2_58 : ends (step (code 0xC000 [0x04, 0x02])) [] =
    some [0x00, 0x00, 0x00, 0xFD, 0x24, 0xC002, 3] := by decide

/-- 95_test_vectors.md L2.59: NOP #imm $89. -/
theorem test_nop_L2_59 : ends (step (code 0xC000 [0x89, 0x55])) [] =
    some [0x00, 0x00, 0x00, 0xFD, 0x24, 0xC002, 2] := by decide
/-! Instructions without a vector of their own: the Example of their rule. -/

/-- R155: STY abs to PPUCTRL. -/
theorem test_sty_example :
    got (step { code 0xC000 [0x8C, 0x00, 0x20] with y := 0x03 }) (fun s => s.bus.ppu.ctrl) = some 0x03 := by
  decide +kernel

/-- R156: TAX. -/
theorem test_tax_example :
    got (step { code 0xC000 [0xAA] with x := 1 }) (fun s => (s.x, s.p.z)) = some (0x00, true) := by decide

/-- R157: TAY. -/
theorem test_tay_example :
    got (step { code 0xC000 [0xA8] with a := 0x9C }) (fun s => (s.y, s.p.n, s.p.z))
      = some (0x9C, true, false) := by decide

/-- R158: TXA. -/
theorem test_txa_example :
    got (step { code 0xC000 [0x8A] with x := 0x01 }) (fun s => (s.a, s.p.n, s.p.z))
      = some (0x01, false, false) := by decide

/-- R159: TYA. -/
theorem test_tya_example :
    got (step { code 0xC000 [0x98] with y := 0x80 }) (fun s => (s.a, s.p.n)) = some (0x80, true) := by decide

/-- R175: ORA. -/
theorem test_ora_example :
    got (step { code 0xC000 [0x09, 0x80] with a := 0x01 }) (fun s => (s.a, s.p.n, s.p.z))
      = some (0x81, true, false) := by decide

/-- R178: CPX. -/
theorem test_cpx_example :
    got (step { code 0xC000 [0xE0, 0x06] with x := 0x05 }) (fun s => (s.p.c, s.p.z, s.p.n))
      = some (false, false, true) := by decide

/-- R179: CPY. -/
theorem test_cpy_example :
    got (step { code 0xC000 [0xC0, 0x01] with y := 0xFF }) (fun s => (s.p.c, s.p.z, s.p.n))
      = some (true, false, true) := by decide

/-- R183: INX. -/
theorem test_inx_example :
    got (step { code 0xC000 [0xE8] with x := 0xFF }) (fun s => (s.x, s.p.z, s.p.n))
      = some (0x00, true, false) := by decide

/-- R184: INY. -/
theorem test_iny_example :
    got (step { code 0xC000 [0xC8] with y := 0x7F }) (fun s => (s.y, s.p.n)) = some (0x80, true) := by decide

/-- R185: DEX. -/
theorem test_dex_example :
    got (step { code 0xC000 [0xCA] with x := 0x01 }) (fun s => (s.x, s.p.z)) = some (0x00, true) := by decide

/-- R186: DEY. -/
theorem test_dey_example :
    got (step { code 0xC000 [0x88] with y := 0x00 }) (fun s => (s.y, s.p.n, s.p.z))
      = some (0xFF, true, false) := by decide

/-- R211: PHA. -/
theorem test_pha_example :
    got (step { code 0xC000 [0x48] with a := 0x5A, sp := 0xFF }) (fun s => (s.peek 0x01FF, s.sp))
      = some (some 0x5A, 0xFE) := by decide

/-- R214, R215, R216, R219, R220: CLC, SEC, CLI, CLD, SED, by the status byte before and after. -/
theorem test_flag_examples :
    got (step { code 0xC000 [0x18] with p := .ofByte 0x25 }) (fun s => s.p.toByte) = some 0x24 ∧
    got (step { code 0xC000 [0x38] with p := .ofByte 0x24 }) (fun s => s.p.toByte) = some 0x25 ∧
    got (step { code 0xC000 [0x58] with p := .ofByte 0x24 }) (fun s => s.p.toByte) = some 0x20 ∧
    got (step { code 0xC000 [0xD8] with p := .ofByte 0x2C }) (fun s => s.p.toByte) = some 0x24 ∧
    got (step { code 0xC000 [0xF8] with p := .ofByte 0x24 }) (fun s => s.p.toByte) = some 0x2C := by decide

/-- R221, R274, R276: NOP $EA; NOP $1A; NOP $C0FF,X across a page. -/
theorem test_nop_examples :
    got (step (code 0xC000 [0xEA])) (fun s => (s.pc, s.stepCycles)) = some (0xC001, 2) ∧
    got (step (code 0xC000 [0x1A])) (fun s => (s.pc, s.stepCycles)) = some (0xC001, 2) ∧
    got (step { code 0xC000 [0x1C, 0xFF, 0xC0] with x := 0x01 }) (fun s => (s.pc, s.stepCycles))
      = some (0xC003, 5) := by decide

/-- R231, R233, R234, R235: BPL across a page, BVC, BVS, BCC across a page. -/
theorem test_branch_examples :
    got (step (code 0x8000 [0x10, 0xFC])) (fun s => (s.pc, s.stepCycles)) = some (0x7FFE, 4) ∧
    got (step (code 0xC000 [0x50, 0x02])) (fun s => (s.pc, s.stepCycles)) = some (0xC004, 3) ∧
    got (step { code 0xC000 [0x70, 0x02] with p := .ofByte 0x64 }) (fun s => (s.pc, s.stepCycles))
      = some (0xC004, 3) ∧
    got (step (code 0xC050 [0x90, 0x80])) (fun s => (s.pc, s.stepCycles)) = some (0xBFD2, 4) := by decide

/-- R239: JMP absolute. -/
theorem test_jmp_example : got (step (code 0x8000 [0x4C, 0x00, 0xC0])) (fun s => s.pc) = some 0xC000 := by
  decide

/-- R262: RLA. -/
theorem test_rla_example :
    got (step { poke [(0x0010, 0x40)] (code 0xC000 [0x27, 0x10]) with a := 0xFF, p := .ofByte 0x25 })
      (fun s => (s.peek 0x0010, s.p.c, s.a, s.p.n)) = some (some 0x81, false, 0x81, true) := by decide

/-- R263: SRE. -/
theorem test_sre_example :
    got (step { poke [(0x0010, 0xFF)] (code 0xC000 [0x47, 0x10]) with a := 0x7F })
      (fun s => (s.peek 0x0010, s.p.c, s.a, s.p.z)) = some (some 0x7F, true, 0x00, true) := by decide

/-- R270: ALR. -/
theorem test_alr_example :
    got (step { code 0xC000 [0x4B, 0xFF] with a := 0x03 }) (fun s => (s.a, s.p.c)) = some (0x01, true) := by
  decide

/-- R273: SBC $EB. -/
theorem test_sbcEB_example :
    got (step { code 0xC000 [0xEB, 0x01] with a := 0x80, p := .ofByte 0x25 }) (fun s => (s.a, s.p.v, s.p.c))
      = some (0x7F, true, true) := by decide

/-- L2.60: JAM halts with PC one past the opcode, and the next step has no successor. -/
theorem test_jam_L2_60 :
    got (step (code 0xC000 [0x92])) (fun s => (s.pc, s.jammed, s.stepCycles)) = some (0xC001, true, 0) ∧
    step { code 0xC000 [0x92] with jammed := true } = .fault .jammed := ⟨by decide, rfl⟩

/-- L2.61, L2.78, L2.79: the unstable opcodes stop. -/
theorem test_unstable_L2_61_78_79 :
    step (code 0xC000 [0x8B, 0x00]) = .refused (.unstable 0x8B) ∧
    step { code 0xC000 [0x9E, 0x00, 0x00] with launch := { Launch.default with strictMode := true } }
      = .fault (.unsupportedOpcode 0x9E) ∧
    step { code 0xC000 [0xBB, 0x00, 0x00] with launch := { Launch.default with strictMode := true } }
      = .refused (.unstable 0xBB) := ⟨rfl, rfl, rfl⟩

/-- L2.80: BRK under debugBreak. -/
theorem test_brk_L2_80 :
    step { code 0xC000 [0x00, 0x00] with launch := { Launch.default with debugBreak := true } }
      = .fault (.breakEncountered 0xC000) := rfl

/-! ### Interrupts, reset, stall, devices -/

/-- L2.62: NMI entry, and the handler's first instruction in the same step. -/
theorem test_nmi_L2_62 :
    ends (step { poke [(0xFFFA, 0x00), (0xFFFB, 0xD0), (0xD000, 0xE8)] (code 0xC000 [0xEA]) with
      p := .ofByte 0x20, nmiLatch := true }) [0x01FD, 0x01FC, 0x01FB] =
      some [0x00, 0x01, 0x00, 0xFA, 0x24, 0xD001, 9, 0xC0, 0x00, 0x20] := by decide

/-- L2.64: a masked IRQ is not taken. -/
theorem test_irq_masked_L2_64 :
    got (step { code 0xC000 [0xEA] with bus := { (code 0xC000 [0xEA]).bus with mapperIrq := true } })
      (fun s => (s.pc, s.sp, s.stepCycles)) = some (0xC001, 0xFD, 2) := by decide

/-- L2.65: an IRQ is taken, the pushed B is 0, and the line stays asserted. -/
theorem test_irq_L2_65 :
    let s := poke [(0xFFFE, 0x00), (0xFFFF, 0xE0), (0xE000, 0xEA)] (code 0xC000 [0xEA])
    got (step { s with p := .ofByte 0xA3, bus := { s.bus with mapperIrq := true } })
      (fun t => (t.peek 0x01FB, t.p.toByte, t.sp, t.pc, t.stepCycles, t.irqLine))
      = some (some 0xA3, 0xA7, 0xFA, 0xE001, 9, true) := by decide

/-- L2.69, L2.70: the stall after an OAMDMA is 513 or 514 by the parity of the cycle count. -/
theorem test_oamDma_stall_L2_69_70 :
    got (step { code 0xC000 [0x8D, 0x14, 0x40] with a := 0x02 }) (fun s => (s.stall, s.cycleCount))
      = some (513, 4) ∧
    got (step { code 0xC000 [0x8D, 0x14, 0x40] with a := 0x02, cycleCount := 1 })
      (fun s => (s.stall, s.cycleCount)) = some (514, 5) := by decide +kernel

/-- L2.73: power-on: from the launch state, the reset sequence and then SEI. -/
theorem test_powerOn_L2_73 :
    ends (step (State.reset.withFetchWord 8 0x78)) [] = some [0x00, 0x00, 0x00, 0xFD, 0x24, 0x8001, 9] := by
  decide

/-- L2.74, L2.75: a reset beats a pending NMI and cuts a stall short. -/
theorem test_reset_L2_74_75 :
    got (step { poke [(0xFFFC, 0x00), (0xFFFD, 0x80), (0x8000, 0xEA)] State.reset with
      nmiLatch := true, stall := 100 }) (fun s => (s.pc, s.nmiLatch, s.stall, s.stepCycles))
      = some (0x8001, false, 0, 9) := by decide

/-- L2.72: a stall step takes no NMI. -/
theorem test_stall_L2_72 :
    got (step { code 0xC000 [0xEA] with stall := 2, nmiLatch := true })
      (fun s => (s.stall, s.nmiLatch, s.pc, s.stepCycles)) = some (1, true, 0xC000, 1) := by decide

/-- L1.9 (corrected): two PPUSCROLL writes, $AB then $CD. -/
theorem test_scroll_L1_9 :
    let b := (State.reset.bus.write 0x2005 0xAB).write 0x2005 0xCD
    ((State.reset.bus.write 0x2005 0xAB).ppu.t.extractLsb' 0 5, b.ppu.fineX, b.ppu.t.extractLsb' 5 5,
      b.ppu.t.extractLsb' 12 3, b.ppu.v, b.ppu.w) = (0x15, 0x3, 0x19, 0x5, 0, false) := by decide

/-- L1.18: the buttons A and Start, read after a strobe. -/
theorem test_controller_L1_18 :
    let b := ((Bus.reset).write 0x4016 1)
    let c := ({ b with pads := { b.pads with buttons1 := 0x09 } } : Bus).write 0x4016 0
    (List.range 9).map (fun n => ((Bus.readTimes 0x4016 n c).read 0x4016).1)
      = [0x41, 0x40, 0x40, 0x41, 0x40, 0x40, 0x40, 0x40, 0x41] := by decide

/-- L1.20: the PAL budget: 2 cycles give 6 dots, 3 more give 10, 7 more give 22. -/
theorem test_pal_L1_20 :
    dotsOf .pal 0 2 = (6, 2) ∧ dotsOf .pal 2 3 = (10, 0) ∧ dotsOf .pal 0 7 = (22, 2) := by decide

/-- A cartridge with PRG RAM at $6000 to $7FFF and one bank register at $8000 to $9FFF, whose bit 0 set puts a
byte in view at $9000 and acknowledges the IRQ. -/
def banked : Cartridge where
  ram := [{ mask := 0xE000, value := 0x6000 }]
  rules := [{ state := 0, addr := { mask := 0xE000, value := 0x8000 }, mask := 0x01, value := 0x01,
              answer := { state := 1, shows := [(0x9000, some 0xAA)], irq := some false } }]
  onReset := none

/-- 20_memory.md R56: PRG RAM at $6000 to $7FFF stores and reads back; a write at $8000 selects a bank, whose
byte the next fetch of $9000 finds; ROM does not change. -/
theorem test_cartridge_R56 :
    let s := poke [(0x9000, 0x11), (0xA000, 0x22)] (code 0xC000 [0x8D, 0x00, 0x60])
    let s := { s with a := 0x01, bus := { s.bus with cart := banked } }
    let t := s.write 0x6123 0x5A
    let u := s.write 0x8000 0x01
    let v := s.write 0xA000 0x33
    (t.peek 0x6123, t.peek 0x9000, t.bus.cartState) = (some 0x5A, some 0x11, 0) ∧
    (u.peek 0x9000, u.bus.cartState, u.irqLine) = (some 0xAA, 1, false) ∧
    (v.peek 0xA000, v.bus.cartState) = (some 0x22, 0) := by decide

/-- 70_reset_and_hazards.md R363: (a) a run to `stop_pc` ends before the instruction there; (b) a run to a BRK
under `debug_break` ends before the BRK; a quit there is never final. -/
theorem test_final_R363 :
    let s := code 0xC000 [0xE8, 0x00, 0x00]
    let a := { s with launch := { Launch.default with stopPc := some 0xC001 } }
    let b := { s with launch := { Launch.default with debugBreak := true } }
    (runToEnd 3 a).map (fun f => (f.x, f.pc)) = some (0x01, 0xC001) ∧
    (runToEnd 3 b).map (fun f => (f.x, f.pc)) = some (0x01, 0xC001) ∧
    runToEnd 3 { a with inputs := [[], [.quit]] } = none ∧ runToEnd 3 { a with jammed := true } = none := by
  decide +kernel

/-- 60_exceptions.md R330: a user reset in a later frame ends no frame. -/
theorem test_frame_R330 :
    let s := poke [(0xFFFC, 0x00), (0xFFFD, 0x80), (0x8000, 0xEA)] State.reset
    let s := { s with bus := { s.bus with ppu := { s.bus.ppu with frame := 5 } } }
    (match step s with
     | .next t => !frameDone s t && t.bus.ppu.frame == 0
     | _ => false) = true := by decide +kernel

/-! ### Witnesses: every hypothesis of a statement is met -/

/-- Encoding: a well-formed instruction, and bytes that decode. -/
theorem witness_encoding :
    (Instr.nopAbsx 0xFC 0xFFFF).wellFormed = true ∧ (Instr.brk).wellFormed = true ∧
    decode [0x7D, 0xFF, 0x02, 0xEA] = .ok (.adcAbsx 0x02FF, [0xEA]) := ⟨by decide, by decide, rfl⟩

/-- Invariant and launch parameters: a state that meets the invariant and has a next state. -/
theorem witness_invariant :
    State.Inv { State.reset with resetPending := false, stall := 514, dotBudget := 4 } ∧
    (got (step { State.reset with resetPending := false, stall := 514, dotBudget := 4 }) (fun s => s.stall))
      = some 513 :=
  ⟨⟨⟨List.Pairwise.nil, fun _ h => absurd h (by simp [State.reset, Bus.reset]), List.Pairwise.nil,
    fun _ h => absurd h (by simp [State.reset, Bus.reset, Ppu.reset]), by decide, by decide⟩, rfl, by decide,
    by decide⟩, by decide⟩

/-- StepRunsDecodedInstruction: the bytes at PC are in RAM, or at the top of the address space, with the IRQ
line low, and with it asserted but masked. -/
theorem witness_step_runs :
    let s := code 0x07FE [0xAD, 0x34, 0x12]
    let t := { code 0xFFFE [0xA9, 0x80] with bus := { (code 0xFFFE [0xA9, 0x80]).bus with mapperIrq := true } }
    (s.mark = none ∧ s.quits = false ∧ s.beginStep.resetPending = false ∧ s.beginStep.jammed = false ∧
      s.beginStep.stall = 0 ∧ s.beginStep.nmiLatch = false ∧ s.beginStep.irqLine = false ∧
      decode [0xAD, 0x34, 0x12] = .ok (.ldaAbs 0x1234, []) ∧
      ∀ (k : Nat) (h : k < 3), s.beginStep.peek (s.beginStep.pc + BitVec.ofNat 16 k)
        = some (([0xAD, 0x34, 0x12] : List Byte)[k])) ∧
    (t.quits = false ∧ t.beginStep.irqLine = true ∧ t.beginStep.p.i = true ∧
      decode [0xA9, 0x80] = .ok (.ldaImm 0x80, []) ∧
      ∀ (k : Nat) (h : k < 2), t.beginStep.peek (t.beginStep.pc + BitVec.ofNat 16 k)
        = some (([0xA9, 0x80] : List Byte)[k])) := by
  refine ⟨⟨rfl, rfl, rfl, rfl, rfl, rfl, rfl, rfl, by decide⟩, ⟨rfl, rfl, rfl, rfl, by decide⟩⟩

/-- StepTakesEventsInPriorityOrder and StallStepOnlyCountsDown: a state for each clause. -/
theorem witness_priority :
    let q := fun s : State => s.mark = none ∧ s.quits = false
    let b := { State.reset with resetPending := false }
    (q State.reset ∧ State.reset.beginStep.resetPending = true) ∧
    (q { b with jammed := true } ∧ ({ b with jammed := true } : State).beginStep.jammed = true) ∧
    (q { b with stall := 1 } ∧ 0 < ({ b with stall := 1 } : State).beginStep.stall ∧
      ({ b with stall := 1 } : State).beginStep.jammed = false) ∧
    (q { b with nmiLatch := true } ∧ ({ b with nmiLatch := true } : State).beginStep.nmiLatch = true ∧
      ({ b with nmiLatch := true } : State).beginStep.stall = 0) ∧
    (q { b with p := .ofByte 0x20, inputs := [[.mapperIrq true]] } ∧
      ({ b with p := .ofByte 0x20, inputs := [[.mapperIrq true]] } : State).beginStep.irqLine = true ∧
      ({ b with p := .ofByte 0x20, inputs := [[.mapperIrq true]] } : State).beginStep.p.i = false) ∧
    (q b ∧ b.beginStep.irqLine = false ∧ b.beginStep.nmiLatch = false) := by decide

/-- UserResetRunsResetSequence: one and two requests, on a jammed and stalled core. -/
theorem witness_user_reset :
    ({ State.reset with resetPending := false, jammed := true, stall := 9, inputs := [[.userReset]] } : State).inputs
      = List.replicate (0 + 1) HostEvent.userReset :: [] ∧
    ({ State.reset with inputs := [[.userReset, .userReset], []] } : State).inputs
      = List.replicate (1 + 1) HostEvent.userReset :: [[]] := by decide

/-- NmiEntryPushesAndVectors and IrqEntryHonoursMask: a latched NMI; an IRQ with I = 0, with I = 1, and none. -/
theorem witness_interrupts :
    ({ State.reset with nmiLatch := true } : State).nmiLatch = true ∧
    (let s := { State.reset with p := .ofByte 0x20, bus := { Bus.reset with mapperIrq := true } }
     s.nmiLatch = false ∧ s.irqLine = true ∧ s.p.i = false) ∧
    (let s := { State.reset with bus := { Bus.reset with apu := { Apu.reset with frameIrq := true } } }
     s.nmiLatch = false ∧ s.irqLine = true ∧ s.p.i = true) ∧
    State.reset.irqLine = false := by decide

/-- OamDmaCopiesPageAndStalls: a page of RAM, at the top of its mirrors, whose bytes nothing has written, with
rendering off; rendering in vblank, and outside it. -/
theorem witness_oamDma :
    let s := { State.reset with bus := { Bus.reset with dmaPage := some 0x1F } }
    let d := fun (l : Nat) => { Ppu.reset with mask := 0x18, line := l }
    s.bus.dmaPage = some 0x1F ∧ s.bus.ppu.rendering = false ∧
    (∀ i : Byte, s.peek (mkWord 0x1F i) = some (Config.ram0 ((mkWord 0x1F i).setWidth 11))) ∧
    State.reset.bus.dmaPage = none ∧
    ((d 260).rendering = true ∧ 241 ≤ (d 260).line ∧ (d 260).line ≤ 260) ∧
    ((d 240).rendering = true ∧ ¬ (241 ≤ (d 240).line ∧ (d 240).line ≤ 260)) := by
  refine ⟨rfl, rfl, fun i => ?_, rfl, by decide, by decide⟩
  have : (mkWord 0x1F i).toNat < 0x2000 := by rw [mkWord_toNat]; have := i.isLt; simp; omega
  simp only [State.peek, Bus.peek, locate_ram this, Bus.ramByte, Bus.reset, Memory.lookup, Option.getD]

/-- MirrorsNameOneLocation and WriteOnlyPortsReadTheLatch: the ends of the two ranges. -/
theorem witness_bus_ranges :
    (0x0000 : Word).toNat < 0x2000 ∧ (0x1FFF : Word).toNat < 0x2000 ∧
    (0x1FFF : Word).toNat % 0x800 = (0x07FF : Word).toNat % 0x800 ∧
    (0x0000 : Word).toNat % 0x800 ≠ (0x07FF : Word).toNat % 0x800 ∧
    0x2000 ≤ (0x2000 : Word).toNat ∧ 0x2000 ≤ (0x3FFF : Word).toNat ∧ (0x3FFF : Word).toNat < 0x4000 ∧
    (0x2006 : Word) ∈ [(0x2000 : Word), 0x2001, 0x2003, 0x2005, 0x2006] := by decide

/-- CartridgeAnswersAsSupplied, StepKeepsLaunchParameters and ResetSequenceSetsRegisters: PRG RAM at both ends
of cartridge space's RAM, a rule met, a write that meets none, an address without a fixed byte, a cartridge that
answers no reset. -/
theorem witness_cartridge :
    let b := { Bus.reset with cart := banked }
    0x4020 ≤ (0x6000 : Word).toNat ∧ 0x4020 ≤ (0xFFFF : Word).toNat ∧
    b.cart.isRam 0x6000 = true ∧ b.cart.isRam 0x7FFF = true ∧ b.cart.isRam 0x8000 = false ∧
    b.cart.ruleFor b.cartState 0x7FFF 0x01 = none ∧ b.cart.ruleFor b.cartState 0x8000 0x02 = none ∧
    (b.cart.ruleFor b.cartState 0x8000 0xFF).map (fun r => r.answer.shows) =
      some ([] ++ [(0x9000, some 0xAA)]) ∧
    b.peek 0x4020 = none ∧ b.cart.onReset = none := by decide

/-- BusReadsLeaveMemory and BusWritesChangeOneByte: plain memory at both ends, and a write outside RAM. -/
theorem witness_bus_plain :
    (code 0xFFFF [0x12]).bus.peek 0xFFFF = some 0x12 ∧ (code 0x0000 [0x34]).bus.peek 0x1800 = some 0x34 ∧
    (0x1FFF : Word).toNat < 0x2000 ∧ 0x2000 ≤ (0x2000 : Word).toNat ∧ (0x401F : Word).toNat < 0x4020 ∧
    0x4020 ≤ (0x4020 : Word).toNat ∧ locate 0x0800 = locate 0x0000 ∧ locate 0x0001 ≠ locate 0x0000 := by decide

/-- ScrollAndAddressWritesFillLatches, FrameInterruptFollowsItsRules and ControllerReadsShiftOutButtons. -/
theorem witness_ports :
    Bus.reset.ppu.w = false ∧ (0x40 : Byte).getLsbD 6 = true ∧ (0x80 : Byte).getLsbD 6 = false ∧
    ({ State.reset with inputs := [[.apuSequenceEnd], []] } : State).inputs = [.apuSequenceEnd] :: [[]] ∧
    (0x01 : Byte).getLsbD 0 = true ∧
    (0x00 : Byte).getLsbD 0 = false ∧ (7 : Nat) < 8 ∧ ¬ (8 : Nat) < 8 := by decide

/-- PpuPortsActOnTheirRegisters: the NMI output low outside vblank, and bit 7 kept; OAM writable at both ends of
vblank and closed beside them; a listed OAM byte; the last address below the palette; the lines on which `v`
moves by PPUCTRL's step. -/
theorem witness_ppu_ports :
    let d := fun (l : Nat) => { Ppu.reset with mask := 0x08, line := l, oam := [(0, 0x12)] }
    (Ppu.reset.vblank = false ∧ Ppu.reset.nmiOut = false ∧ (0x7F : Byte).getLsbD 7 = Ppu.reset.ctrl.getLsbD 7) ∧
    Ppu.reset.rendering = false ∧ (241 ≤ (d 241).line ∧ (d 260).line ≤ 260) ∧
    ((d 261).rendering = true ∧ ¬ (241 ≤ (d 261).line ∧ (d 261).line ≤ 260)) ∧
    (d 0).oam.lookup (d 0).oamAddr.toNat = some 0x12 ∧
    (({ Ppu.reset with v := 0x3EFF } : Ppu).v.setWidth 14).toNat < 0x3F00 ∧
    (240 ≤ (d 240).line ∧ (d 240).line ≤ 260) := by decide

/-- VblankDotsDriveNmi: before the dot, with the NMI enabled, disabled, and already asserted; before dot 1 of the
pre-render line; and before another dot. -/
theorem witness_vblank :
    let b := fun (c : Byte) (o : Bool) =>
      ({ State.reset with bus := { Bus.reset with ppu :=
        { Ppu.reset with line := 241, ctrl := c, nmiOut := o, nmiPrev := o } } } : State)
    ((b 0x80 false).bus.ppu.line = 241 ∧ (b 0x80 false).bus.ppu.dot = 0 ∧
      (b 0x80 false).bus.ppu.nmiPrev = (b 0x80 false).bus.ppu.nmiOut ∧
      (b 0x80 false).bus.ppu.ctrl.getLsbD 7 = true) ∧
    (b 0x00 false).bus.ppu.ctrl.getLsbD 7 = false ∧ (b 0x80 true).bus.ppu.nmiOut = true ∧
    (({ Ppu.reset with line := 261 } : Ppu).line = 261 ∧ ({ Ppu.reset with line := 261 } : Ppu).dot = 0) ∧
    ¬ ((State.reset.bus.ppu.line = 241 ∨ State.reset.bus.ppu.line = 261) ∧ State.reset.bus.ppu.dot = 0) := by
  decide

/-- DotsFollowFrameGeometry and DotsPerCycleByRegion: the last dot of the frame, the removed dot, both
regions. -/
theorem witness_dots :
    (let s := { State.reset with bus := { Bus.reset with ppu := { Ppu.reset with line := 261, dot := 340 } } }
     s.bus.ppu.line < 262 ∧ s.bus.ppu.dot < 341 ∧ s.bus.ppu.mask.getLsbD 3 = false) ∧
    (let s := { State.reset with bus := { Bus.reset with ppu :=
       { Ppu.reset with line := 261, dot := 338, frame := 1, mask := 0x08 } } }
     s.bus.ppu.line = 261 ∧ s.bus.ppu.dot = 338 ∧ s.bus.ppu.frame % 2 = 1 ∧
     s.bus.ppu.mask.getLsbD 3 = true) ∧
    State.reset.launch.region = .ntsc ∧ State.reset.dotBudget < 5 ∧ State.reset.beginStep.resetPending = true ∧
    (got (step (State.reset.withFetchWord 8 0xEA)) (fun t => t.bus.ppu.frame)) = some 0 ∧
    ({ State.reset with launch := { Launch.default with region := .pal } } : State).launch.region = .pal := by
  decide +kernel

/-- The statements by mnemonic: each mnemonic they name has an instruction. -/
theorem witness_mnemonics :
    [Instr.ldaImm 0, .ldxImm 0, .ldyImm 0, .laxZp 0, .staZp 0, .stxZp 0, .styZp 0, .saxZp 0, .adcImm 0,
      .sbcImm 0, .sbcEB 0, .andImm 0, .oraImm 0, .eorImm 0, .cmpImm 0, .cpxImm 0, .cpyImm 0, .bitZp 0,
      .incZp 0, .decZp 0, .nopImplied 0x1A].map Instr.mnemonic
      = [.lda, .ldx, .ldy, .lax, .sta, .stx, .sty, .sax, .adc, .sbc, .sbc, .and, .ora, .eor, .cmp, .cpx, .cpy,
        .bit, .inc, .dec, .nop] ∧
    [Instr.sloZp 0, .rlaZp 0, .sreZp 0, .rraZp 0, .iscZp 0, .dcpZp 0, .ane 0, .lxa 0, .las 0, .shaIzy 0,
      .tas 0, .shx 0, .shy 0, .brk].map Instr.mnemonic
      = [.slo, .rla, .sre, .rra, .isc, .dcp, .ane, .lxa, .las, .sha, .tas, .shx, .shy, .brk] := by decide

/-- AddressingModesFindTheirOperand: instructions of the three ways to find M, and modes that cross no page. -/
theorem witness_operand_modes :
    (Operand.zpx 0xFF).mode ∉ [.absoluteX, .absoluteY, .indirectY] ∧
    (Operand.izx 0xFF).mode ∉ [.absoluteX, .absoluteY, .indirectY] ∧
    [Instr.ldaImm 0, .aslAcc, .ldaIzy 0].all (fun i =>
      decide (i.operand.mode ∉ [.implied, .indirect, .relative])) = true := by decide

/-- ShiftsMoveCarry and OnlyListedInstructionsWriteRegisters: a memory form is no accumulator form. -/
theorem witness_shift_modes :
    [Instr.aslZp 0, .lsrZp 0, .rolAbs 0, .rorAbsx 0].map (fun i => (i.mnemonic, i.operand.mode))
      = [(.asl, .zeroPage), (.lsr, .zeroPage), (.rol, .absolute), (.ror, .absoluteX)] := by decide

/-- The statements that give the operand and the result as variables (stores, INC and DEC, shifts, composed
opcodes): the equations they assume fix the variables, here for ISC on a byte $FF and RRA on $01. -/
theorem witness_results :
    let s := poke [(0x0010, 0xFF)] State.reset
    let u := poke [(0x0010, 0x01)] State.reset
    (Instr.iscZp 0x10).mnemonic = .isc ∧ ((Instr.iscZp 0x10).operand.fetch s).1 + 1 = 0x00 ∧
    (Instr.rraZp 0x10).mnemonic = .rra ∧ ((Instr.rraZp 0x10).operand.fetch u).1 = 0x01 ∧
    BitVec.ofNat 8 ((0x01 : Byte).toNat / 2 + 128 * false.toNat) = (0x00 : Byte) := by decide

/-- PhpThenPlpRestoresStatus and JsrThenRtsReturns: the first instruction of each pair completes, and the state
after a JSR itself has the stack the RTS needs. -/
theorem witness_pairs :
    (∃ t u, exec .php State.reset = .next t ∧ exec .plp t = .next u) ∧
    (∃ t, exec (.jsr 0xD000) State.reset = .next t ∧ t.sp = State.reset.sp - 2) :=
  ⟨⟨_, _, rfl, rfl⟩, ⟨_, rfl, rfl⟩⟩

/-- BrkEntersThroughIrqVector and UnstableOpcodesStop: both values of the launch parameters. -/
theorem witness_launch :
    State.reset.launch.debugBreak = false ∧ State.reset.launch.strictMode = false ∧
    (let l := { Launch.default with debugBreak := true, strictMode := true }
     l.debugBreak = true ∧ l.strictMode = true) := by decide

/-- JamHaltsTheCore: a jammed core to which the host presses a button. -/
theorem witness_jam :
    let s := { State.reset with resetPending := false, jammed := true,
                                inputs := [[.controller false .a true]] }
    s.mark = none ∧ s.jammed = true ∧ s.resetPending = false ∧ HostEvent.quit ∉ s.arriving ∧
    HostEvent.userReset ∉ s.arriving := by decide

/-- FinalStatesEndRuns: a final boundary; a BRK under `debugBreak`; a marked, a quit and a jammed state; a
boundary at which the run goes on. -/
theorem witness_final :
    let s := code 0xC000 [0x00, 0xEA]
    let b := { s with launch := { Launch.default with debugBreak := true } }
    ({ s with launch := { Launch.default with stopPc := some 0xC000 } } : State).isFinal = true ∧
    (b.launch.debugBreak = true ∧ b.mark = none ∧ b.quits = false ∧ b.beginStep.resetPending = false ∧
      b.jammed = false ∧ b.stall = 0 ∧ b.nmiLatch = false ∧ b.beginStep.irqLine = false ∧
      b.peek b.pc = some 0x00) ∧
    ({ s with p := .ofByte 0x24, bus := { s.bus with mapperIrq := true } } : State).p.i = true ∧
    (({ s with mark := some (.refusedUnstable 0x8B) } : State).mark ≠ none) ∧
    (({ s with inputs := [[.quit]] } : State).quits = true) ∧
    (({ s with jammed := true } : State).jammed = true ∧
      ({ s with jammed := true } : State).beginStep.resetPending = false) ∧
    (s.finalState = none ∧ (got (step s) (fun t => t.sp)) = some 0xFA) := by decide +kernel

/-- OnlyListedInstructionsWriteRegisters, OnlyListedInstructionsWriteFlags and DecimalFlagChangesNoResult: an
instruction that completes and is none of the listed ones. -/
theorem witness_only_listed :
    (∃ t, exec (.staZp 0x10) State.reset = .next t) ∧
    (Instr.staZp 0x10).mnemonic ∉ [.php, .brk, .plp, .rti, .cld, .sed] ∧
    (Instr.staZp 0x10).mnemonic ≠ .jam ∧
    (Instr.adcImm 0).mnemonic ∉ [.php, .brk, .plp, .rti, .cld, .sed] := ⟨⟨_, rfl⟩, by decide, by decide, by decide⟩

end Sys2Proof.Tests
end

section
/-! What an instruction does to the registers, said once: its effect, as a function of the byte it took in, and
around the effect only PC, the cycles and the accesses of the bus. The invariant of the machine, and the lists of
the instructions that write a register or a flag (10_state.md R21 to R34), are read off it. -/
namespace Sys2Proof.Machine

/-! ### Accesses of the bus -/

/-- The bus after some reads and writes of the core (00_scope.md R10). -/
inductive Bus.Accessed (b : Bus) : Bus → Prop where
  | refl : b.Accessed b
  | read {c : Bus} (w : Word) : b.Accessed c → b.Accessed (c.read w).2
  | write {c : Bus} (w : Word) (v : Byte) : b.Accessed c → b.Accessed (c.write w v)

/-- A push is one write of the stack page (40_execution_cycle.md R124). -/
theorem Bus.Accessed.push {b c : Bus} (sp v : Byte) (h : b.Accessed c) :
    b.Accessed (c.setRam (stackIndex sp) v) :=
  c.write_stackAddr sp v ▸ h.write (stackAddr sp) v

theorem Bus.Accessed.fetch (o : Operand) (s : State) : s.bus.Accessed (o.fetch s).2.bus := by
  cases o
  case imm | acc => exact .refl
  all_goals exact .read _ .refl

/-- Accesses keep the bus in order. -/
theorem Bus.Accessed.inv {b c : Bus} (h : b.Accessed c) (hb : b.Inv) : c.Inv := by
  induction h with
  | refl => exact hb
  | read w _ ih => exact ih.of_read w
  | write w v _ ih => exact ih.of_write w v

/-! ### The effect of an instruction -/

/-- What an instruction with operand `o` does to the registers, when `m` is the byte it takes in: the operand's,
or the one it pulls from the stack. PC, the cycles and the bus are left out. -/
def effectOf (k : Mnemonic) (o : Operand) (m : Byte) (s : State) : State :=
  match k with
  | .lda => s.setA m
  | .ldx => s.setX m
  | .ldy => s.setY m
  | .lax => lax m s
  | .adc => adc m s
  | .sbc => sbc m s
  | .and => andA m s
  | .ora => oraA m s
  | .eor => eorA m s
  | .cmp => cmp m s
  | .cpx => cpx m s
  | .cpy => cpy m s
  | .bit => bitTest m s
  | .anc => anc m s
  | .alr => alr m s
  | .arr => arr m s
  | .axs => axs m s
  | .inc => (incModify m s).2
  | .dec => (decModify m s).2
  | .asl => shift aslOp
  | .lsr => shift lsrOp
  | .rol => shift rolOp
  | .ror => shift rorOp
  | .slo => oraA (carryModify aslOp m s).1 (carryModify aslOp m s).2
  | .rla => andA (carryModify rolOp m s).1 (carryModify rolOp m s).2
  | .sre => eorA (carryModify lsrOp m s).1 (carryModify lsrOp m s).2
  | .rra => adc (carryModify rorOp m s).1 (carryModify rorOp m s).2
  | .dcp => cmp (m - 1) s
  | .isc => sbc (m + 1) s
  | .tax => s.setX s.a
  | .tay => s.setY s.a
  | .txa => s.setA s.x
  | .tya => s.setA s.y
  | .tsx => s.setX s.sp
  | .txs => { s with sp := s.x }
  | .inx => s.setX (s.x + 1)
  | .iny => s.setY (s.y + 1)
  | .dex => s.setX (s.x - 1)
  | .dey => s.setY (s.y - 1)
  | .clc => s.setP { s.p with c := false }
  | .sec => s.setP { s.p with c := true }
  | .cli => s.setP { s.p with i := false }
  | .sei => s.setP { s.p with i := true }
  | .clv => s.setP { s.p with v := false }
  | .cld => s.setP { s.p with d := false }
  | .sed => s.setP { s.p with d := true }
  | .php | .pha => { s with sp := s.sp - 1 }
  | .plp => { s with sp := s.sp + 1, p := .pulledByPlp m }
  | .pla => { s.setA m with sp := s.sp + 1 }
  | .jsr => { s with sp := s.sp - 1 - 1 }
  | .rts => { s with sp := s.sp + 1 + 1 }
  | .rti => { s with sp := s.sp + 1 + 1 + 1, p := .pulledByRti m }
  | .brk => { s with sp := s.sp - 1 - 1 - 1, p := { s.p with i := true } }
  | .jam => { s with jammed := true }
  | .sta | .stx | .sty | .sax | .nop | .jmp | .bpl | .bmi | .bvc | .bvs | .bcc | .bcs | .bne | .beq
  | .ane | .lxa | .las | .sha | .tas | .shx | .shy => s
where
  /-- A shift or rotate writes the accumulator in its accumulator form only (43_shift_rotate.md R200). -/
  shift (op : Byte → Bool → Byte × Bool) : State :=
    { (shiftModify op m s).2 with a := if o = .acc then (shiftModify op m s).1 else s.a }

section
variable (k : Mnemonic) (o : Operand) (m : Byte) (s : State)

/-- No instruction has an effect on the machine's own registers (10_state.md R36, R38, R39;
40_execution_cycle.md R123; 60_exceptions.md R331, R334). -/
theorem effectOf_keeps :
    (effectOf k o m s).nmiLatch = s.nmiLatch ∧ (effectOf k o m s).resetPending = s.resetPending ∧
    (effectOf k o m s).stall = s.stall ∧ (effectOf k o m s).dotBudget = s.dotBudget ∧
    (effectOf k o m s).mark = s.mark ∧ (effectOf k o m s).launch = s.launch ∧
    (effectOf k o m s).inputs = s.inputs := by
  cases k <;> exact ⟨rfl, rfl, rfl, rfl, rfl, rfl, rfl⟩

/-- U stays 1 under every instruction: the two that pull P force it (10_state.md R32). -/
theorem effectOf_unused (h : s.p.u = true) : (effectOf k o m s).p.u = true := by
  cases k
  case plp | rti => rfl
  all_goals exact h

/-- A shift of memory leaves the accumulator (43_shift_rotate.md R200). -/
theorem effectOf_shift_a {k : Mnemonic} {o : Operand} (hk : k ∈ [Mnemonic.asl, .lsr, .rol, .ror])
    (ho : o.mode ≠ .accumulator) : (effectOf k o m s).a = s.a := by
  have h : o ≠ .acc := fun e => ho (e ▸ rfl)
  fin_cases hk <;> exact if_neg h

end

/-- An instruction that completes has its effect on the registers, and besides only moves PC, counts cycles and
accesses the bus. -/
theorem exec_next {i : Instr} {s t : State} (h : exec i s = .next t) :
    ∃ (m : Byte) (n : Nat) (pc : Word) (b : Bus), s.bus.Accessed b ∧
      t = { (effectOf i.mnemonic i.operand m s).tick n with pc := pc, bus := b } := by
  have e := exec_by_mnemonic i s
  generalize i.mnemonic = k at e ⊢
  cases k <;> simp only at e
  case bpl | bmi | bvc | bvs | bcc | bcs | bne | beq =>
    obtain ⟨off, e⟩ := e
    rw [e] at h; cases h
    exact ⟨0, _, _, _, .refl, rfl⟩
  case jmp =>
    obtain ⟨a, e | e⟩ := e <;> rw [e] at h <;> cases h
    · exact ⟨0, _, _, _, .refl, rfl⟩
    · exact ⟨0, _, _, _, .read _ (.read _ .refl), rfl⟩
  case jsr =>
    obtain ⟨a, e⟩ := e
    rw [e] at h; cases h
    exact ⟨0, _, _, _, .push _ _ (.push _ _ .refl), rfl⟩
  all_goals rw [e] at h; clear e
  case ane | lxa | las | sha | tas | shx | shy =>
    unfold unstableOp at h; split at h <;> cases h
  case brk =>
    unfold execBrk at h
    split at h <;> cases h
    exact ⟨0, _, _, _, .read _ (.read _ (.push _ _ (.push _ _ (.push _ _ .refl)))), rfl⟩
  case lda | ldx | ldy | lax | adc | sbc | and | ora | eor | cmp | cpx | cpy | bit | anc | alr | arr | axs =>
    rw [readOp, fetch_state] at h; cases h
    exact ⟨_, _, _, _, .fetch i.operand s, rfl⟩
  case inc | dec | slo | rla | sre | rra | dcp | isc =>
    simp only [rmwOp] at h
    rw [fetch_state] at h; cases h
    exact ⟨(i.operand.fetch s).1, _, _, _, .write _ _ (.fetch i.operand s), rfl⟩
  case asl | lsr | rol | ror =>
    simp only [effectOf, effectOf.shift]
    split at h
    · rename_i ha
      cases h
      exact ⟨s.a, _, _, _, .refl, by rw [if_pos ha]; rfl⟩
    · rename_i ha
      simp only [rmwOp] at h
      rw [fetch_state] at h; cases h
      exact ⟨(i.operand.fetch s).1, _, _, _, .write _ _ (.fetch i.operand s), by rw [if_neg ha]; rfl⟩
  case sta | stx | sty | sax => cases h; exact ⟨0, _, _, _, .write _ _ .refl, rfl⟩
  case php | pha => cases h; exact ⟨0, _, _, _, .push _ _ .refl, rfl⟩
  case plp | pla | rti => cases h; exact ⟨s.pull.1, _, _, _, .refl, rfl⟩
  case jam => cases h; exact ⟨0, 0, _, _, .refl, rfl⟩
  all_goals cases h; exact ⟨0, _, _, _, .refl, rfl⟩

/-! ### The invariant -/

theorem exec_keeps_inv {i : Instr} {s t : State} (hs : s.Inv) (h : exec i s = .next t) : t.Inv := by
  obtain ⟨m, n, pc, b, hb, rfl⟩ := exec_next h
  obtain ⟨-, -, hstall, hbudget, -⟩ := effectOf_keeps i.mnemonic i.operand m s
  exact ⟨hb.inv hs.bus, effectOf_unused _ _ _ _ hs.unused, hbudget.trans_lt hs.budget,
    hstall.trans_le hs.stall⟩

/-- Settles O4: `step_next` says what the step was, and each of its parts keeps the invariant. -/
theorem stepKeepsMachineInvariant : Obligations.StepKeepsMachineInvariant := by
  intro s t hs h
  have fetched : ∀ u, (u = s.beginStep.resetSequence ∨ u = s.beginStep.serviceInterrupt) →
      u.fetchInstr.2.Inv := by
    rintro u (rfl | rfl)
    · exact hs.of_beginStep.of_resetSequence.of_fetchInstr
    · exact hs.of_beginStep.of_serviceInterrupt.of_fetchInstr
  obtain ⟨-, -, ⟨u, hx, -, hu⟩ | ⟨u, v, hx, -, rfl, hu⟩ | ⟨-, rfl⟩⟩ := step_next h
  · exact exec_keeps_inv (fetched u hu) hx
  · exact (exec_keeps_inv (fetched u hu) hx).of_oamDma.of_advancePpu
  · have hb := hs.of_beginStep
    have hstall : s.beginStep.stallStep.Inv := ⟨hb.bus, hb.unused, hb.budget, (Nat.sub_le ..).trans hb.stall⟩
    exact hstall.of_advancePpu

/-! ### What only the listed instructions write -/

/-- Settles O58: by the effect of the mnemonic, which leaves the register or is listed. -/
theorem onlyListedInstructionsWriteRegisters : Obligations.OnlyListedInstructionsWriteRegisters := by
  intro i s t h
  have hcart := (exec_steady h).1.cart
  obtain ⟨m, n, pc, b, -, rfl⟩ := exec_next h
  obtain ⟨hnmi, hreset, hstall, hbudget, hmark, hlaunch, hinputs⟩ :=
    effectOf_keeps i.mnemonic i.operand m s
  refine ⟨fun hk => ?_, effectOf_shift_a m s, fun hk => ?_, fun hk => ?_, fun hk => ?_, fun hk => ?_,
    hnmi, hreset, hstall, hbudget, hmark, hlaunch, hcart, hinputs⟩
  all_goals
    dsimp only [State.tick]
    generalize i.mnemonic = k at hk ⊢
    cases k
    all_goals try rfl -- the mnemonics whose effect leaves it
    all_goals exact absurd hk (by decide) -- the mnemonics listed

/-- Settles O59: by the effect of the mnemonic, which leaves the flag or is listed. -/
theorem onlyListedInstructionsWriteFlags : Obligations.OnlyListedInstructionsWriteFlags := by
  intro i s t h
  obtain ⟨m, n, pc, b, -, rfl⟩ := exec_next h
  refine ⟨fun hk => ?_, fun hk => ⟨?_, ?_⟩, fun hk => ?_, fun hk => ?_, fun hk => ⟨?_, ?_⟩, fun hk => ?_⟩
  all_goals
    dsimp only [State.tick]
    generalize i.mnemonic = k at hk ⊢
    cases k
    all_goals try rfl -- the mnemonics whose effect leaves it
    all_goals exact absurd hk (by decide) -- the mnemonics listed

end Sys2Proof.Machine
end

section
/-! The decimal flag takes no part (10_state.md R30; 42_alu.md R187): every way an instruction uses its operand,
and every effect, commutes with replacing it. -/
namespace Sys2Proof.Machine

/-- The state with the decimal flag replaced. -/
def State.setD (s : State) (d : Bool) : State := { s with p := { s.p with d := d } }

section
variable (o : Operand) (base : Nat) (s : State) (d : Bool)

theorem State.advance_setD (n : Nat) : (s.setD d).advance n = (s.advance n).setD d := rfl

theorem State.write_setD (w : Word) (v : Byte) : (s.setD d).write w v = (s.write w v).setD d := rfl

theorem Operand.fetch_setD : o.fetch (s.setD d) = ((o.fetch s).1, (o.fetch s).2.setD d) := by
  cases o <;> rfl

theorem Operand.ea_setD : o.ea (s.setD d) = o.ea s := by
  cases o <;> rfl

theorem Operand.penalty_setD : o.penalty (s.setD d) = o.penalty s := by
  cases o <;> rfl

theorem readOp_setD {effect : Byte → State → State}
    (he : ∀ m u, effect m (State.setD u d) = (effect m u).setD d) :
    readOp o base effect (s.setD d) = withDecimal d (readOp o base effect s) := by
  simp only [readOp, Operand.fetch_setD, Operand.penalty_setD, State.advance_setD, he]
  rfl

theorem writeOp_setD {value : State → Byte} (hv : value (s.setD d) = value s) :
    writeOp o base value (s.setD d) = withDecimal d (writeOp o base value s) := by
  simp only [writeOp, Operand.ea_setD, hv]
  rfl

theorem rmwOp_setD {modify : Byte → State → Byte × State} {second : Byte → State → State}
    (hm : ∀ m u, modify m (State.setD u d) = ((modify m u).1, (modify m u).2.setD d))
    (hs : ∀ m u, second m (State.setD u d) = (second m u).setD d) :
    rmwOp o base modify second (s.setD d) = withDecimal d (rmwOp o base modify second s) := by
  simp only [rmwOp, Operand.fetch_setD, Operand.ea_setD, State.advance_setD, State.write_setD, hm, hs]
  rfl

theorem nopOp_setD : nopOp o base (s.setD d) = withDecimal d (nopOp o base s) := by
  simp only [nopOp, Operand.penalty_setD]
  rfl

theorem impliedOp_setD {effect : State → State} (he : ∀ u, effect (State.setD u d) = (effect u).setD d) :
    impliedOp base effect (s.setD d) = withDecimal d (impliedOp base effect s) :=
  congrArg (fun u => Host.Outcome.next (State.tick u base)) (he (s.advance 1))

theorem branchOp_setD {cond : State → Bool} (hc : cond (s.setD d) = cond s) (off : Byte) :
    branchOp cond off (s.setD d) = withDecimal d (branchOp cond off s) := by
  simp only [branchOp, hc]
  rfl

theorem unstableOp_setD (op : Byte) (strictFaults : Bool) :
    unstableOp op strictFaults (s.setD d) = withDecimal d (unstableOp op strictFaults s) := by
  have hl : (s.setD d).launch = s.launch := rfl
  unfold unstableOp
  rw [hl]
  split <;> rfl

end

/-- The mnemonics of control transfer as in `exec_by_mnemonic`, with one operand for every state. -/
theorem exec_control_by_mnemonic (i : Instr) :
    match i.mnemonic with
    | .bpl => ∃ off, ∀ s, exec i s = branchOp (fun t => !t.p.n) off s
    | .bmi => ∃ off, ∀ s, exec i s = branchOp (fun t => t.p.n) off s
    | .bvc => ∃ off, ∀ s, exec i s = branchOp (fun t => !t.p.v) off s
    | .bvs => ∃ off, ∀ s, exec i s = branchOp (fun t => t.p.v) off s
    | .bcc => ∃ off, ∀ s, exec i s = branchOp (fun t => !t.p.c) off s
    | .bcs => ∃ off, ∀ s, exec i s = branchOp (fun t => t.p.c) off s
    | .bne => ∃ off, ∀ s, exec i s = branchOp (fun t => !t.p.z) off s
    | .beq => ∃ off, ∀ s, exec i s = branchOp (fun t => t.p.z) off s
    | .jmp => ∃ a, (∀ s, exec i s = execJmpAbs a s) ∨ ∀ s, exec i s = execJmpInd a s
    | .jsr => ∃ a, ∀ s, exec i s = execJsr a s
    | _ => True := by
  cases i
  case bpl | bmi | bvc | bvs | bcc | bcs | bne | beq | jsr => exact ⟨_, fun _ => rfl⟩
  case jmpAbs => exact ⟨_, .inl fun _ => rfl⟩
  case jmpInd => exact ⟨_, .inr fun _ => rfl⟩
  all_goals exact trivial

/-- Settles O60: by the kind of the instruction, whose effect commutes with replacing D. -/
theorem decimalFlagChangesNoResult : Obligations.DecimalFlagChangesNoResult := by
  intro i s d hk
  change exec i (s.setD d) = _
  have e := exec_by_mnemonic i s
  have e' := exec_by_mnemonic i (s.setD d)
  have hc := exec_control_by_mnemonic i
  generalize i.mnemonic = k at hk e e' hc ⊢
  cases k <;> simp only at e e' hc
  case php | brk | plp | rti | cld | sed => exact absurd hk (by decide)
  case bpl | bmi | bvc | bvs | bcc | bcs | bne | beq =>
    obtain ⟨off, hc⟩ := hc
    rw [hc, hc]
    exact branchOp_setD s d rfl off
  case jmp => obtain ⟨a, hc | hc⟩ := hc <;> rw [hc, hc] <;> rfl
  case jsr =>
    obtain ⟨a, hc⟩ := hc
    rw [hc, hc]
    rfl
  all_goals rw [e, e']
  case lda | ldx | ldy | lax | adc | sbc | and | ora | eor | cmp | cpx | cpy | bit | anc | alr | arr | axs =>
    exact readOp_setD _ _ s d fun _ _ => rfl
  case sta | stx | sty | sax => exact writeOp_setD _ _ s d rfl
  case inc | dec | slo | rla | sre | rra | dcp | isc =>
    exact rmwOp_setD _ _ s d (fun _ _ => rfl) fun _ _ => rfl
  case asl | lsr | rol | ror =>
    split
    · rfl
    · exact rmwOp_setD _ _ s d (fun _ _ => rfl) fun _ _ => rfl
  case nop => exact nopOp_setD ..
  case ane | lxa | las | sha | tas | shx | shy => exact unstableOp_setD ..
  case jam => rfl
  all_goals exact impliedOp_setD _ s d fun _ => rfl

end Sys2Proof.Machine
end

section
/-! The memory map (20_memory.md R50 to R64): the two mirrors, what a read and a write do to plain memory, the
cartridge the launch supplies, the write-only PPU ports, and the frame interrupt (60_exceptions.md R327). -/
namespace Sys2Proof.Machine

/-! ### Mirrors -/

/-- A read sees of an address only what answers it (20_memory.md R51). -/
theorem Bus.read_congr_locate (b : Bus) {a w : Word} (h : locate a = locate w) : b.read a = b.read w := by
  simp only [Bus.read, h]

/-- A write sees of an address only what answers it (20_memory.md R51). -/
theorem Bus.write_congr_locate (b : Bus) {a w : Word} (h : locate a = locate w) (v : Byte) :
    b.write a v = b.write w v := by
  simp only [Bus.write, h]

/-- Two addresses of internal RAM name one byte exactly if they agree modulo $0800 (20_memory.md R52). -/
theorem locate_ram_eq_iff {a w : Word} (ha : a.toNat < 0x2000) (hw : w.toNat < 0x2000) :
    locate a = locate w ↔ a.toNat % 0x800 = w.toNat % 0x800 := by
  rw [locate_ram ha, locate_ram hw, Location.ram.injEq, ← BitVec.toNat_inj, BitVec.toNat_setWidth,
    BitVec.toNat_setWidth]

/-- A PPU register repeats every 8 bytes (20_memory.md R53). -/
theorem locate_ppu_mirror {w : Word} (h : 0x2000 ≤ w.toNat) (h' : w.toNat < 0x4000) :
    locate w = locate (BitVec.ofNat 16 (0x2000 + w.toNat % 8)) := by
  have hn : (BitVec.ofNat 16 (0x2000 + w.toNat % 8)).toNat = 0x2000 + w.toNat % 8 := by
    rw [BitVec.toNat_ofNat]; omega
  rw [locate_ppu h h', locate_ppu (by omega) (by omega), Location.ppu.injEq, ← BitVec.toNat_inj,
    BitVec.toNat_setWidth, BitVec.toNat_setWidth, hn]
  omega

/-- What internal RAM reads after a write to it: the byte written wherever that byte is named. -/
theorem Bus.read_write_ram (b : Bus) {w a : Word} (hw : w.toNat < 0x2000) (ha : a.toNat < 0x2000) (v : Byte) :
    ((b.write w v).read a).1 = if locate a = locate w then v else (b.read a).1 := by
  simp only [b.write_ram (locate_ram hw), Bus.read_ram _ (locate_ram ha), Bus.ramByte_setRam, locate_ram ha,
    locate_ram hw, Location.ram.injEq]

/-- Settles O17: a mirror is answered by what answers the address it mirrors, and no access sees more of it. -/
theorem mirrorsNameOneLocation : Obligations.MirrorsNameOneLocation := by
  refine ⟨fun b w r v hw hr => ⟨?_, fun h => ?_, ?_⟩, fun b w v h h' => ?_⟩
  · rw [b.read_ram (locate_ram hr)]
  · have hl := (locate_ram_eq_iff hr hw).mpr h
    exact ⟨by rw [b.read_congr_locate hl], b.write_congr_locate hl v⟩
  · simp only [b.read_write_ram hw hr, locate_ram_eq_iff hr hw]
  · have hl := locate_ppu_mirror h h'
    exact ⟨b.read_congr_locate hl, b.write_congr_locate hl v⟩

/-! ### Plain memory -/

/-- Settles O18: a read changes no listed byte, and only a read that finds no listed byte changes anything. -/
theorem busReadsLeaveMemory : Obligations.BusReadsLeaveMemory :=
  fun b w => ⟨b.read_peek w, fun _ => Bus.read_of_peek⟩

/-- Settles O19: the model's write is one write onto the bus of the state. -/
theorem busWritesChangeOneByte : Obligations.BusWritesChangeOneByte :=
  fun _ w v => Stored.of_write w v rfl rfl rfl rfl

/-! ### The cartridge -/

/-- The bus when a CPU write has reached the cartridge and PRG RAM has stored its byte, before any rule answers
(20_memory.md R56). -/
def Bus.stored (b : Bus) (w : Word) (v : Byte) : Bus :=
  { b with mem := if b.cart.isRam w then b.mem.set w.toNat v else b.mem, cartLog := .write w v :: b.cartLog }

section
variable {b : Bus} {w : Word} {v : Byte} (hw : 0x4020 ≤ w.toNat)
include hw

/-- A write of cartridge space that meets a rule: the byte is stored and the rule answers (20_memory.md R58). -/
theorem Bus.write_of_rule {r : CartRule} (h : b.cart.ruleFor b.cartState w v = some r) :
    b.write w v = (b.stored w v).answer r.answer := by
  simp only [Bus.write, locate_cart hw, Bus.writeCart, h, Bus.stored]

/-- A write of cartridge space that meets no rule: the byte is stored, and the IRQ output is held or falls
(20_memory.md R58; log 19). -/
theorem Bus.write_of_no_rule (h : b.cart.ruleFor b.cartState w v = none) :
    b.write w v = { b.stored w v with mapperIrq := (b.stored w v).heldIrq w } := by
  simp only [Bus.write, locate_cart hw, Bus.writeCart, h, Bus.stored]

/-- Every write of cartridge space reaches the cartridge. -/
theorem Bus.write_cartLog : (b.write w v).cartLog = .write w v :: b.cartLog := by
  cases h : b.cart.ruleFor b.cartState w v with
  | some r => rw [Bus.write_of_rule hw h]; rfl
  | none => rw [Bus.write_of_no_rule hw h]; rfl

/-- The byte in view after a write of cartridge space reads without a side effect. -/
theorem Bus.read_write_of_viewAfter {a : Word} {u : Byte} (ha : 0x4020 ≤ a.toNat)
    (h : b.viewAfter w v a = some u) : (b.write w v).read a = (u, b.write w v) := by
  apply Bus.read_of_peek
  rw [Bus.write_peek, if_neg (by omega), if_neg (by omega), h]

/-- A read of cartridge space without a listed byte: the platform answers, this read included (log 5). -/
theorem Bus.read_of_unlisted (h : b.peek w = none) :
    b.read w = (Config.cartByte (.read w :: b.cartLog) w, { b with cartLog := .read w :: b.cartLog }) := by
  simp only [Bus.peek, locate_cart hw] at h
  simp only [Bus.read, locate_cart hw, Bus.readCart, h]

end

/-- A write that no rule answers never raises the IRQ output (log 19). -/
theorem Bus.mapperIrq_of_heldIrq {b : Bus} {w : Word} (h : b.heldIrq w = true) : b.mapperIrq = true := by
  unfold Bus.heldIrq at h
  split at h
  · exact (Bool.and_eq_true_iff.mp h).1
  · exact h

/-- What it takes for a rule to answer a write (20_memory.md R58). -/
theorem Cartridge.ruleFor_some {c : Cartridge} {state : Nat} {w : Word} {v : Byte} {r : CartRule}
    (h : c.ruleFor state w v = some r) :
    r ∈ c.rules ∧ r.state = state ∧ r.addr.selects w = true ∧ v &&& r.mask = r.value := by
  unfold Cartridge.ruleFor at h
  have hm := List.find?_some h
  simp only [CartRule.meets, Bool.and_eq_true, beq_iff_eq] at hm
  obtain ⟨⟨hstate, haddr⟩, hvalue⟩ := hm
  exact ⟨List.mem_of_find?_eq_some h, hstate, haddr, hvalue⟩

/-- The last entry for an address is what is shown there. -/
theorem shownAt_append_self (a : Word) (old o : Option Byte) (es : List (Word × Option Byte)) :
    shownAt a old (es ++ [(a, o)]) = o := by
  induction es generalizing old with
  | nil => simp [shownAt]
  | cons e es ih => exact ih _

/-- Settles O20: by whether the write meets a rule; what reads back is the byte in view after it. -/
theorem cartridgeAnswersAsSupplied : Obligations.CartridgeAnswersAsSupplied := by
  refine fun b w v hw => ⟨fun hram hr => ?_, fun r hr => ?_, fun hr => ?_, Bus.write_cartLog hw,
    Bus.read_of_unlisted hw⟩
  · exact Bus.read_write_of_viewAfter hw hw (by simp [Bus.viewAfter, hr, hram])
  · obtain ⟨hmem, hstate, haddr, hvalue⟩ := Cartridge.ruleFor_some hr
    have hb := Bus.write_of_rule hw hr
    refine ⟨hmem, hstate, haddr, hvalue, by rw [hb]; rfl, by rw [hb]; rfl, fun a u before ha hs => ?_⟩
    exact Bus.read_write_of_viewAfter hw ha (by simp only [Bus.viewAfter, hr, hs, shownAt_append_self])
  · rw [Bus.write_of_no_rule hw hr]
    exact ⟨rfl, Bus.mapperIrq_of_heldIrq⟩

/-! ### The write-only PPU ports -/

/-- A read of a write-only port returns the data-bus latch and is one draw (20_memory.md R64). -/
theorem Bus.read_writeOnlyPort (b : Bus) {port : Word}
    (h : port ∈ [(0x2000 : Word), 0x2001, 0x2003, 0x2005, 0x2006]) :
    b.read port = (b.ppu.latch, { b with draws := b.draws + 1 }) := by
  fin_cases h <;> rfl

/-- A write of any PPU port fills the data-bus latch (20_memory.md R64; log 10). -/
theorem Bus.write_ppu_latch (b : Bus) {w : Word} (h : 0x2000 ≤ w.toNat) (h' : w.toNat < 0x4000) (v : Byte) :
    (b.write w v).ppu.latch = v := by
  simp only [Bus.write, locate_ppu h h', Ppu.writePort]

/-- Settles O23: the read returns the latch, which the write before it has filled. -/
theorem writeOnlyPortsReadTheLatch : Obligations.WriteOnlyPortsReadTheLatch := by
  refine fun b port v hp => ⟨b.read_writeOnlyPort hp, fun w h h' => ?_⟩
  rw [(b.write w v).read_writeOnlyPort hp]
  exact b.write_ppu_latch h h' v

/-! ### The frame interrupt -/

/-- Bit 6 of a $4015 read is the frame interrupt (60_exceptions.md R327). -/
theorem Apu.statusByte_getLsbD_six (u : Apu) (k : Nat) : (u.statusByte k).getLsbD 6 = u.frameIrq := by
  unfold Apu.statusByte
  cases u.frameIrq <;> simp

/-- A $4015 read returns the status byte, clears the frame interrupt and is one draw (20_memory.md R62). -/
theorem State.read_4015 (s : State) :
    s.read 0x4015 = (s.bus.apu.statusByte s.bus.draws,
      { s with bus := { s.bus with apu := { s.bus.apu with frameIrq := false }, draws := s.bus.draws + 1 } }) :=
  rfl

/-- A $4017 write clears the frame interrupt's share of the IRQ line exactly if it inhibits it. -/
theorem State.irqLine_write_4017 (s : State) (v : Byte) :
    (s.write 0x4017 v).irqLine = ((s.bus.apu.frameIrq && !v.getLsbD 6) || s.bus.mapperIrq) := rfl

/-- A sequence end that arrives alone at a boundary is all that moves the IRQ line there (log 8). -/
theorem State.beginStep_irqLine_of_sequenceEnd {s : State} {rest : List (List HostEvent)}
    (h : s.inputs = [.apuSequenceEnd] :: rest) :
    s.beginStep.irqLine = (s.bus.apu.sequenceEnd.frameIrq || s.bus.mapperIrq) := by
  simp only [State.beginStep, State.arriving, h, List.headD_cons, List.foldl_cons, List.foldl_nil]
  rfl

/-- Settles O25: each access and the sequence end act on the frame interrupt, and the IRQ line is its OR with
the mapper's output. -/
theorem frameInterruptFollowsItsRules : Obligations.FrameInterruptFollowsItsRules := by
  refine fun s v => ⟨?_, ?_, fun hv => ?_, fun hv => ?_, rfl, fun rest h => ?_⟩
  · rw [State.read_4015]
    exact s.bus.apu.statusByte_getLsbD_six _
  · rw [State.read_4015]
    exact Bool.false_or _
  · rw [State.irqLine_write_4017, hv]
    simp
  · rw [State.irqLine_write_4017, hv]
    simp [State.irqLine]
  · rw [State.beginStep_irqLine_of_sequenceEnd h]
    exact Bool.or_right_comm ..

end Sys2Proof.Machine
end

section
/-! The encoding (30_encoding.md R80, R81, R102, R103): what the decoder answers, said once, and both ways round
between an instruction and its bytes. -/
namespace Sys2Proof.Laws

/-- The decoder answers an instruction exactly if the bytes are its opcode, as many operand bytes as the opcode
has, and the rest. -/
theorem decode_eq_ok_iff {bs rest : List Byte} {i : Instr} :
    decode bs = .ok (i, rest) ↔
      ∃ op ops, bs = op :: (ops ++ rest) ∧ operandCount op = ops.length ∧
        i = instrOf op (ops.getD 0 0) (ops.getD 1 0) := by
  constructor
  · intro h
    unfold decode at h
    split at h
    · cases h
    · rename_i op _
      split at h <;> cases h
      case h_1 hn => exact ⟨op, [], rfl, hn, rfl⟩
      case h_2 b1 hn => exact ⟨op, [b1], rfl, hn, rfl⟩
      case h_3 b1 b2 hn => exact ⟨op, [b1, b2], rfl, hn, rfl⟩
  · rintro ⟨op, ops, rfl, hn, rfl⟩
    match ops, hn with
    | [], hn => exact decode_zero hn rest
    | [b1], hn => exact decode_one hn b1 rest
    | [b1, b2], hn => exact decode_two hn b1 b2 rest
    | _ :: _ :: _ :: _, hn => exact absurd (hn ▸ operandCount_le_two op) (by simp)

/-- The operand bytes of a decoded instruction are those it was read from, as many as its opcode has. -/
theorem bytes_instrOf (op b1 b2 : Byte) :
    (instrOf op b1 b2).operand.bytes = [b1, b2].take (operandCount op) := by
  obtain ⟨n, rfl⟩ : ∃ n : Fin 256, op = BitVec.ofFin n := ⟨op.toFin, rfl⟩
  fin_cases n
  all_goals try rfl -- at most one operand byte
  all_goals exact congrArg₂ (fun lo hi => [lo, hi]) (loByte_mkWord b2 b1) (hiByte_mkWord b2 b1)

/-- A well-formed instruction is the one the opcode map has for its opcode and its operand bytes. -/
theorem instrOf_opcode_bytes {i : Instr} (h : i.wellFormed = true) :
    instrOf i.opcode (i.operand.bytes.getD 0 0) (i.operand.bytes.getD 1 0) = i := by
  have listed : i.opcodeListed = true := (Bool.and_eq_true_iff.mp h).2
  clear h
  cases i
  case' jam op | nopImplied op | nopImm op _ | nopZp op _ | nopZpx op _ | nopAbsx op _ | anc op _ =>
    have hop := List.contains_iff_mem.mp listed
    clear listed
    fin_cases hop -- the rows the constructor stands for
  all_goals dsimp only [Instr.opcode, Instr.operand, Operand.bytes]
  all_goals try rfl -- at most one operand byte
  all_goals
    rename_i a
    conv_rhs => rw [← mkWord_hiByte_loByte a]
    rfl

/-- A well-formed instruction has as many operand bytes as the decoder reads after its opcode. -/
theorem operandCount_opcode {i : Instr} (h : i.wellFormed = true) :
    operandCount i.opcode = i.operand.bytes.length := by
  have hb := bytes_instrOf i.opcode (i.operand.bytes.getD 0 0) (i.operand.bytes.getD 1 0)
  rw [instrOf_opcode_bytes h] at hb
  rw [hb]
  exact (List.length_take.trans (min_eq_left (operandCount_le_two i.opcode))).symm

/-- Settles O1: the opcode says how many operand bytes to read, and with them it names the instruction. -/
theorem encodeThenDecodeRoundTrips : Obligations.EncodeThenDecodeRoundTrips := fun _ _ h =>
  decode_eq_ok_iff.mpr ⟨_, _, rfl, operandCount_opcode h, (instrOf_opcode_bytes h).symm⟩

/-- A list of at most two bytes is what is left of it padded to two and cut again. -/
theorem take_length_getD {ops : List Byte} (h : ops.length ≤ 2) :
    [ops.getD 0 0, ops.getD 1 0].take ops.length = ops := by
  match ops, h with
  | [], _ | [_], _ | [_, _], _ => rfl

/-- Settles O2: an opcode has at most two operand bytes, and the instruction it names keeps those it was read
from. -/
theorem everyByteSequenceDecodesExactly : Obligations.EveryByteSequenceDecodesExactly := by
  refine ⟨fun op b1 b2 => ?_, fun bs i rest h => ?_⟩
  · have hn := operandCount_le_two op
    have hlen : ([b1, b2].take (operandCount op)).length = operandCount op :=
      List.length_take.trans (min_eq_left hn)
    exact ⟨_, [b1, b2].drop (operandCount op), decode_eq_ok_iff.mpr
      ⟨op, _, by rw [List.take_append_drop], hlen.symm, rfl⟩⟩
  · obtain ⟨op, ops, rfl, hn, rfl⟩ := decode_eq_ok_iff.mp h
    refine ⟨wellFormed_instrOf .., ?_⟩
    rw [encode, opcode_instrOf, bytes_instrOf, hn, take_length_getD (hn ▸ operandCount_le_two op),
      List.cons_append]

/-- Settles O3: each word evaluates. -/
theorem handEncodedWordsDecode : Obligations.HandEncodedWordsDecode :=
  ⟨rfl, rfl, rfl, rfl, rfl, rfl, rfl, rfl, rfl, rfl, rfl⟩

end Sys2Proof.Laws
end

section
/-! The addressing modes (30_encoding.md R87 to R98): where each finds its operand. -/
namespace Sys2Proof.Machine

open Sys2Proof.Laws

/-- The operand byte of an immediate is the second byte of the instruction (30_encoding.md R90). -/
theorem encode_getD_one (i : Instr) : (encode i).getD 1 0 = i.operand.bytes.getD 0 0 := rfl

/-- The pointer of (indirect),Y and of (indirect,X), read low byte first from the zero page
(30_encoding.md R97, R98). -/
theorem zeroPageWord_reads (s : State) (b : Byte) :
    let lo := s.read (mkWord 0 b)
    let hi := lo.2.read (mkWord 0 (b + 1))
    s.zeroPageWord b = mkWord hi.1 lo.1 ∧ hi.2 = s :=
  ⟨zeroPageWord_eq s b, by simp only [read_zeroPage]⟩

/-- A page cross of an indexed address: its page is not the base's (30_encoding.md R87). -/
theorem pageCross_iff (base ea : Word) : pageCross base ea = true ↔ ea.toNat / 256 ≠ base.toNat / 256 :=
  hiByte_bne_iff ea base

/-- Settles O30: by the mode of the operand; the pointer's bytes are two reads without a side effect. -/
theorem addressingModesFindTheirOperand : Obligations.AddressingModesFindTheirOperand := by
  refine ⟨fun i s hm => ?_, fun s b a => ⟨zext16_eq_mkWord b, zext16_eq_mkWord _, zext16_eq_mkWord _, rfl,
    add_zext16_toNat a s.x, add_zext16_toNat a s.y, zeroPageWord_reads s (b + s.x), ?_,
    pageCross_iff _ _, pageCross_iff _ _, fun o ho => ?_⟩⟩
  · rw [encode_getD_one]
    generalize i.operand = o at hm ⊢
    cases o
    case implied | ind | rel => exact absurd hm (by simp [Operand.mode])
    all_goals rfl
  · obtain ⟨hp, hs⟩ := zeroPageWord_reads s b
    dsimp only
    rw [← hp]
    exact ⟨add_zext16_toNat _ s.y, hs, pageCross_iff _ _⟩
  · cases o
    case absx | absy | izy => exact absurd ho (by simp [Operand.mode])
    all_goals rfl

end Sys2Proof.Machine
end

section
/-! The step (40_execution_cycle.md R120 to R123, R136): what each way through a step boundary answers, the fetch
of an instruction from plain memory, and what a stall step leaves as it was. -/
namespace Sys2Proof.Machine

open Sys2Proof.Laws

/-! ### The ways through a boundary -/

/-- A marked state answers the outcome that marked it (40_execution_cycle.md R123; log 2). -/
theorem step_of_mark {s : State} {m : Mark} (h : s.mark = some m) : step s = m.outcome := by
  rw [step, machineStep, h]

/-- No reset clears a mark (40_execution_cycle.md R123). -/
@[simp] theorem State.resetSequence_mark (s : State) : s.resetSequence.mark = s.mark := rfl

/-- Settles O11: the mark is what the step answers by, and the reset sequence leaves it. -/
theorem markedStateHasNoStep : Obligations.MarkedStateHasNoStep := fun s op =>
  ⟨step_of_mark (s := s.markedBy (.refused (.unstable op))) rfl,
    step_of_mark (s := s.markedBy (.fault (.unsupportedOpcode op))) rfl,
    State.resetSequence_mark _, State.resetSequence_mark _⟩

section
variable {s : State}

/-- An unmarked state that does not quit takes its turn at the boundary. -/
theorem step_of_unmarked (hm : s.mark = none) (hq : s.quits = false) : step s = turn s.beginStep := by
  simp only [step, machineStep, hm, hq, Bool.false_eq_true, if_false]

/-- A stalled core that no reset frees only counts down (40_execution_cycle.md R136). -/
theorem turn_of_stall (hr : s.resetPending = false) (hj : s.jammed = false) (hs : 0 < s.stall) :
    turn s = .next s.stallStep.advancePpu := by
  simp only [turn, hr, hj, hs, Bool.false_eq_true, if_false, if_true]

/-- A core that nothing keeps from running services its interrupts and runs an instruction
(40_execution_cycle.md R120). -/
theorem turn_of_running (hr : s.resetPending = false) (hj : s.jammed = false) (hs : s.stall = 0) :
    turn s = runInstruction s.serviceInterrupt := by
  simp only [turn, hr, hj, hs, Bool.false_eq_true, lt_irrefl, if_false]

/-- Without an NMI latched, and without an IRQ or with it masked, no interrupt is entered
(60_exceptions.md R303). -/
theorem State.serviceInterrupt_of_none (hn : s.nmiLatch = false) (hi : s.irqLine = false ∨ s.p.i = true) :
    s.serviceInterrupt = s := by
  have hirq : (s.irqLine && !s.p.i) = false := by
    rcases hi with h | h <;> simp [h]
  simp only [State.serviceInterrupt, hn, hirq, Bool.false_eq_true, if_false]

/-! ### Fetching an instruction from plain memory -/

/-- The instruction whose bytes are plain memory at PC is the one fetched, without a side effect
(40_execution_cycle.md R120; 30_encoding.md R80, R84). -/
theorem State.fetchInstr_of_decode {bs : List Byte} {i : Instr} (hd : decode bs = .ok (i, []))
    (hb : ∀ (k : Nat) (h : k < bs.length), s.peek (s.pc + BitVec.ofNat 16 k) = some bs[k]) :
    s.fetchInstr = (i, s) := by
  obtain ⟨op, ops, rfl, hn, rfl⟩ := decode_eq_ok_iff.mp hd
  rw [List.append_nil] at hb
  have hop : s.read s.pc = (op, s) :=
    State.read_of_peek ((congrArg s.peek (BitVec.add_zero _).symm).trans (hb 0 (Nat.succ_pos _)))
  match ops, hn with
  | [], (hn : operandCount op = 0) => simp only [State.fetchInstr, hop, hn, List.getD_nil]
  | [b1], (hn : operandCount op = 1) =>
    have h1 : s.read (s.pc + 1) = (b1, s) := State.read_of_peek (hb 1 (by simp))
    simp only [State.fetchInstr, hop, h1, hn]
    rfl
  | [b1, b2], (hn : operandCount op = 2) =>
    have h1 : s.read (s.pc + 1) = (b1, s) := State.read_of_peek (hb 1 (by simp))
    have h2 : s.read (s.pc + 2) = (b2, s) := State.read_of_peek (hb 2 (by simp))
    simp only [State.fetchInstr, hop, h1, h2, hn]
    rfl
  | _ :: _ :: _ :: _, hn => exact absurd (hn ▸ operandCount_le_two op) (by simp)

end

/-- Settles O7: nothing at the boundary takes the step, and the instruction fetched is the one decoded. -/
theorem stepRunsDecodedInstruction : Obligations.StepRunsDecodedInstruction := by
  intro s bs i hm hq hr hj hs hn hi hd hb
  have hstep : step s = runInstruction s.beginStep := by
    rw [step_of_unmarked hm hq, turn_of_running hr hj hs, State.serviceInterrupt_of_none hn hi]
  have hf := State.fetchInstr_of_decode hd hb
  rw [hstep]
  cases hx : exec i s.beginStep <;> simp only [runInstruction, hf, hx]

/-! ### What the boundary and the dots leave -/

section
variable (s : State)

@[simp] theorem State.beginStep_a : s.beginStep.a = s.a := by rw [s.beginStep_keeps.1]
@[simp] theorem State.beginStep_x : s.beginStep.x = s.x := by rw [s.beginStep_keeps.1]
@[simp] theorem State.beginStep_y : s.beginStep.y = s.y := by rw [s.beginStep_keeps.1]
@[simp] theorem State.beginStep_sp : s.beginStep.sp = s.sp := by rw [s.beginStep_keeps.1]
@[simp] theorem State.beginStep_pc : s.beginStep.pc = s.pc := by rw [s.beginStep_keeps.1]
@[simp] theorem State.beginStep_p : s.beginStep.p = s.p := by rw [s.beginStep_keeps.1]
@[simp] theorem State.beginStep_stall : s.beginStep.stall = s.stall := by rw [s.beginStep_keeps.1]
@[simp] theorem State.beginStep_cycleCount : s.beginStep.cycleCount = s.cycleCount := by
  rw [s.beginStep_keeps.1]
@[simp] theorem State.beginStep_mem : s.beginStep.bus.mem = s.bus.mem := s.beginStep_keeps.2.1
@[simp] theorem State.beginStep_ppu : s.beginStep.bus.ppu = s.bus.ppu := s.beginStep_keeps.2.2.1

@[simp] theorem State.advancePpu_a : s.advancePpu.a = s.a := by rw [s.advancePpu_keeps.1]
@[simp] theorem State.advancePpu_x : s.advancePpu.x = s.x := by rw [s.advancePpu_keeps.1]
@[simp] theorem State.advancePpu_y : s.advancePpu.y = s.y := by rw [s.advancePpu_keeps.1]
@[simp] theorem State.advancePpu_sp : s.advancePpu.sp = s.sp := by rw [s.advancePpu_keeps.1]
@[simp] theorem State.advancePpu_pc : s.advancePpu.pc = s.pc := by rw [s.advancePpu_keeps.1]
@[simp] theorem State.advancePpu_p : s.advancePpu.p = s.p := by rw [s.advancePpu_keeps.1]
@[simp] theorem State.advancePpu_stall : s.advancePpu.stall = s.stall := by rw [s.advancePpu_keeps.1]
@[simp] theorem State.advancePpu_cycleCount : s.advancePpu.cycleCount = s.cycleCount := by
  rw [s.advancePpu_keeps.1]
@[simp] theorem State.advancePpu_stepCycles : s.advancePpu.stepCycles = s.stepCycles := by
  rw [s.advancePpu_keeps.1]
@[simp] theorem State.advancePpu_mem : s.advancePpu.bus.mem = s.bus.mem := s.advancePpu_keeps.2.1
@[simp] theorem State.advancePpu_oam : s.advancePpu.bus.ppu.oam = s.bus.ppu.oam := s.advancePpu_keeps.2.2.1

/-- Of what is behind the bus, dots change the PPU alone, and they may draw. -/
theorem State.runDots_bus (n : Nat) :
    (State.runDots n s).bus =
      { s.bus with ppu := (State.runDots n s).bus.ppu, draws := (State.runDots n s).bus.draws } := by
  induction n generalizing s with
  | zero => rfl
  | succ n ih => exact ih s.stepDot

@[simp] theorem State.advancePpu_apu : s.advancePpu.bus.apu = s.bus.apu := by
  rw [State.advancePpu, State.runDots_bus]
@[simp] theorem State.advancePpu_pads : s.advancePpu.bus.pads = s.bus.pads := by
  rw [State.advancePpu, State.runDots_bus]
@[simp] theorem State.advancePpu_mapperIrq : s.advancePpu.bus.mapperIrq = s.bus.mapperIrq := by
  rw [State.advancePpu, State.runDots_bus]

/-- The dots leave a latched NMI latched (60_exceptions.md R302). -/
theorem State.advancePpu_nmiLatch (h : s.nmiLatch = true) : s.advancePpu.nmiLatch = true :=
  s.advancePpu_keeps.2.2.2 h

end

/-- Settles O12: the stall step is the countdown and the dots, and neither they nor the boundary move the rest. -/
theorem stallStepOnlyCountsDown : Obligations.StallStepOnlyCountsDown := by
  intro s hm hq hr hj hs
  refine ⟨(step_of_unmarked hm hq).trans (turn_of_stall hr hj hs), ?_⟩
  simp +contextual [State.irqLine, State.advancePpu_nmiLatch]

end Sys2Proof.Machine
end

section
/-! OAMDMA (40_execution_cycle.md R134, R135): a copy with OAM open to writes fills it from OAMADDR on, and one
while OAM takes no write leaves it (70_reset_and_hazards.md R359). -/
namespace Sys2Proof.Machine

/-- OAM takes writes with rendering off and in vblank (70_reset_and_hazards.md R359; log 14). -/
theorem Ppu.oamWritable_iff (p : Ppu) :
    p.oamWritable = true ↔ p.rendering = false ∨ (241 ≤ p.line ∧ p.line ≤ 260) := by
  simp [Ppu.oamWritable, Ppu.onVblankLine]

/-- Whether OAM takes writes is PPUMASK's and the line's to say. -/
theorem Ppu.oamWritable_congr {p q : Ppu} (hm : q.mask = p.mask) (hl : q.line = p.line) :
    q.oamWritable = p.oamWritable := by
  simp only [Ppu.oamWritable, Ppu.rendering, Ppu.onVblankLine, hm, hl]

/-- No read changes PPUMASK (60_exceptions.md R320). -/
theorem Bus.read_mask (b : Bus) (w : Word) : (b.read w).2.ppu.mask = b.ppu.mask := by
  unfold Bus.read
  split
  case h_2 => unfold Bus.readPpu Ppu.readPort; split <;> rfl -- a PPU port
  case h_9 => unfold Bus.readCart; split <;> rfl -- cartridge space
  all_goals rfl

/-- No read decides whether OAM takes writes. -/
theorem Bus.read_oamWritable (b : Bus) (w : Word) : (b.read w).2.ppu.oamWritable = b.ppu.oamWritable :=
  Ppu.oamWritable_congr (b.read_mask w) (b.read_ppu_keeps w).2.1

section
variable {b : Bus} (v : Byte)

/-- An OAMDATA write with OAM open to writes (60_exceptions.md R325). -/
theorem Bus.write_oamData_of_writable (h : b.ppu.oamWritable = true) :
    b.write 0x2004 v =
      { b with ppu := { b.ppu with oam := b.ppu.oam.set b.ppu.oamAddr.toNat v, oamAddr := b.ppu.oamAddr + 1,
                                   latch := v }
               draws := b.draws + 1 } := by
  have hw : b.ppu.writeOam v b.draws = _ := if_pos h
  exact congrArg (fun p : Ppu => { b with ppu := { p with latch := v }, draws := b.draws + 1 }) hw

/-- An OAMDATA write while OAM takes none drops the byte (70_reset_and_hazards.md R359; log 14). -/
theorem Bus.write_oamData_of_dropped (h : b.ppu.oamWritable = false) :
    b.write 0x2004 v =
      { b with ppu := { b.ppu with oamAddr := Config.droppedOamAddr b.draws, latch := v }
               draws := b.draws + 1 } := by
  have hw : b.ppu.writeOam v b.draws = _ := if_neg (by simp [h])
  exact congrArg (fun p : Ppu => { b with ppu := { p with latch := v }, draws := b.draws + 1 }) hw

end

/-- The last `n` copies of a page of plain memory with OAM open to writes, the first of them at the place of its
index from `a` on: they fill the rest of OAM, keep what stands before, and bring OAMADDR round to `a`. -/
theorem State.dmaCopy_fills (page a : Byte) (data : Byte → Byte) {n : Nat} (hn : n ≤ 256) {s : State}
    (hw : s.bus.ppu.oamWritable = true) (hp : ∀ i : Byte, s.peek (mkWord page i) = some (data i))
    (ha : s.bus.ppu.oamAddr = a + BitVec.ofNat 8 (256 - n)) :
    (State.dmaCopy page n s).bus.ppu.oamAddr = a ∧
    ∀ i : Byte, (State.dmaCopy page n s).bus.ppu.oam.lookup (a + i).toNat =
      if 256 - n ≤ i.toNat then some (data i) else s.bus.ppu.oam.lookup (a + i).toNat := by
  induction n generalizing s with
  | zero => exact ⟨ha.trans (BitVec.add_zero a), fun i => (if_neg (by have := i.isLt; omega)).symm⟩
  | succ n ih =>
    let j := BitVec.ofNat 8 (255 - n)
    have hj : j.toNat = 255 - n := by simp only [j, BitVec.toNat_ofNat]; omega
    have hsub : 256 - (n + 1) = 255 - n := by omega
    rw [hsub] at ha ⊢
    replace ha : s.bus.ppu.oamAddr = a + j := ha
    have hread : s.read (mkWord page j) = (data j, s) := State.read_of_peek (hp j)
    have hbus := Bus.write_oamData_of_writable (data j) hw
    rw [ha] at hbus
    obtain ⟨haddr, hoam⟩ := ih (s := s.write 0x2004 (data j)) (by omega) (by rw [State.write_bus, hbus]; exact hw)
      (fun i => by rw [State.peek, State.write_bus, hbus]; exact hp i)
      (by rw [State.write_bus, hbus]; apply BitVec.eq_of_toNat_eq; simp [hj]; omega)
    rw [State.dmaCopy, hread]
    refine ⟨haddr, fun i => ?_⟩
    simp only [hoam, State.write_bus, hbus, Memory.lookup_set, BitVec.toNat_inj, BitVec.add_right_inj]
    by_cases hi : i = j
    · simp [hi, hj]
    · have hle : 256 - n ≤ i.toNat ↔ 255 - n ≤ i.toNat := by
        have : i.toNat ≠ 255 - n := fun e => hi (BitVec.eq_of_toNat_eq (e.trans hj.symm))
        omega
      simp only [hi, hle, if_false]

/-- Copies while OAM takes no write leave it as it was. -/
theorem State.dmaCopy_dropped (page : Byte) (n : Nat) {s : State} (hw : s.bus.ppu.oamWritable = false) :
    (State.dmaCopy page n s).bus.ppu.oam = s.bus.ppu.oam := by
  induction n generalizing s with
  | zero => rfl
  | succ n ih =>
    let r := s.bus.read (mkWord page (BitVec.ofNat 8 (255 - n)))
    have hr : r.2.ppu.oamWritable = false := (s.bus.read_oamWritable _).trans hw
    have hbus := Bus.write_oamData_of_dropped r.1 hr
    calc (State.dmaCopy page (n + 1) s).bus.ppu.oam
        = (r.2.write 0x2004 r.1).ppu.oam :=
          ih (s := { s with bus := r.2.write 0x2004 r.1 }) (by rw [hbus]; exact hr)
      _ = r.2.ppu.oam := by rw [hbus]
      _ = s.bus.ppu.oam := (s.bus.read_ppu_keeps _).1

/-- The state in which the copies of an OAMDMA begin: its page is taken out of the model's field (log 24). -/
def State.dmaTaken (s : State) : State := { s with bus := { s.bus with dmaPage := none } }

section
variable {s : State}

/-- Without a $4014 write there is no OAMDMA. -/
theorem State.oamDma_of_none (h : s.bus.dmaPage = none) : s.oamDma = s := by
  rw [State.oamDma, h]

variable {page : Byte} (h : s.bus.dmaPage = some page)
include h

/-- An OAMDMA is its 256 copies, then the stall: its parity is that of the cycle count, which the copies leave
(40_execution_cycle.md R134, R135). -/
theorem State.oamDma_of_page :
    s.oamDma = { State.dmaCopy page 256 s.dmaTaken with stall := 513 + s.cycleCount % 2 } := by
  rw [State.oamDma, h]
  generalize (256 : Nat) = n -- so that no copy is unfolded
  have hc : (State.dmaCopy page n s.dmaTaken).cycleCount = s.cycleCount := by
    rw [(State.dmaCopy_keeps page n s.dmaTaken).1]; rfl
  rw [← State.dmaTaken, ← hc]

/-- An OAMDMA of a page of plain memory fills OAM from OAMADDR on, and OAMADDR comes round
(40_execution_cycle.md R134; 60_exceptions.md R325). -/
theorem State.oamDma_fills (hw : s.bus.ppu.oamWritable = true) {data : Byte → Byte}
    (hp : ∀ i : Byte, s.peek (mkWord page i) = some (data i)) :
    (∀ i : Byte, s.oamDma.bus.ppu.oam.lookup (s.bus.ppu.oamAddr + i).toNat = some (data i)) ∧
    s.oamDma.bus.ppu.oamAddr = s.bus.ppu.oamAddr := by
  obtain ⟨haddr, hoam⟩ := State.dmaCopy_fills page s.bus.ppu.oamAddr data le_rfl (s := s.dmaTaken) hw hp
    (BitVec.add_zero _).symm
  rw [State.oamDma_of_page h]
  exact ⟨fun i => (hoam i).trans (if_pos (Nat.zero_le _)), haddr⟩

/-- An OAMDMA while OAM takes no write leaves it (70_reset_and_hazards.md R359). -/
theorem State.oamDma_dropped (hw : s.bus.ppu.oamWritable = false) :
    s.oamDma.bus.ppu.oam = s.bus.ppu.oam := by
  rw [State.oamDma_of_page h, State.dmaCopy_dropped page 256 (s := s.dmaTaken) hw]
  rfl

end

/-- Settles O15: by whether OAM takes writes, which no copy changes. -/
theorem oamDmaCopiesPageAndStalls : Obligations.OamDmaCopiesPageAndStalls := by
  refine fun s => ⟨fun page => rfl, State.oamDma_of_none, fun page h =>
    ⟨?_, fun hw data hp => ?_, fun hr hl => ?_⟩⟩
  · obtain ⟨hkeeps, hmem⟩ := s.oamDma_keeps
    refine ⟨by rw [State.oamDma_of_page h], ?_, ?_, ?_, ?_, ?_, ?_, ?_, .of_mem hmem⟩
    all_goals rw [hkeeps]
  · exact State.oamDma_fills h (s.bus.ppu.oamWritable_iff.mpr hw) hp
  · refine State.oamDma_dropped h ?_
    rw [← Bool.not_eq_true, Ppu.oamWritable_iff, hr]
    simpa using hl

end Sys2Proof.Machine
end

section
/-! The RMW instructions without a second operation (40_execution_cycle.md R131): INC, DEC and the shifts. -/
namespace Sys2Proof.Machine

open Sys2Proof.Laws

/-- A write onto the bus that fetching an operand leaves is a store: the fetch changes no plain memory and no
cartridge (40_execution_cycle.md R131). -/
theorem Stored.of_fetch (o : Operand) {w : Word} {v : Byte} {s t : State}
    (ht : t.bus = (o.fetch s).2.bus.write w v) : Stored w v s t := by
  obtain ⟨-, -, hcart, hstate⟩ := fetch_keeps o s
  exact .of_write w v (fetch_mem o s) hcart hstate ht

/-- The state after an RMW instruction that writes `r` and leaves the flags `p`: one read and one write of the
effective address (40_execution_cycle.md R131). -/
def State.afterRmw (s : State) (i : Instr) (r : Byte) (p : Status) : State :=
  { s.after i (rmwCycles i.operand.mode) with
    bus := (i.operand.fetch s).2.bus.write (i.operand.ea s) r, p := p }

/-- An RMW instruction without a second operation writes what `modify` gives, with its flags, and is a store. -/
theorem rmwOp_noSecond {i : Instr} (hi : i.mnemonic ≠ .brk) {modify : Byte → State → Byte × State} {s : State}
    {r : Byte} {p : Status}
    (hm : ∀ pc bus, modify (i.operand.fetch s).1 { s with pc := pc, bus := bus } =
      (r, { s with pc := pc, bus := bus, p := p })) :
    rmwOp i.operand (rmwCycles i.operand.mode) modify noSecond s = .next (s.afterRmw i r p) ∧
    Stored (i.operand.ea s) r s (s.afterRmw i r p) := by
  refine ⟨?_, .of_fetch i.operand rfl⟩
  rw [rmwOp_eq hi]
  simp only [hm]
  rfl

/-- Settles O39: INC and DEC are the RMW operation with `incModify` and `decModify`. -/
theorem incDecStepMemory : Obligations.IncDecStepMemory := by
  intro i s r h
  have e := exec_by_mnemonic i s
  rcases h with ⟨hk, rfl⟩ | ⟨hk, rfl⟩ <;> simp only [hk] at e <;> rw [e]
  all_goals exact rmwOp_noSecond (by simp [hk]) fun _ _ => rfl

/-! ### Shifts -/

/-- The accumulator form of a shift, whose one byte is the opcode, takes 2 cycles and makes no access
(43_shift_rotate.md R200). -/
theorem shiftAcc_eq {op : Byte → Bool → Byte × Bool} {s : State} {r : Byte} {c : Bool} {i : Instr}
    (hi : i.length = 1) (h : op s.a s.p.c = (r, c)) :
    shiftAcc op s = .next
      { s.after i 2 with a := r, p := { s.p with c := c, z := decide (r = 0), n := r.getLsbD 7 } } := by
  simp only [shiftAcc, h, State.after, hi]
  rfl

/-- The memory form of a shift: C gets the bit shifted out, N and Z are the result's (43_shift_rotate.md R200). -/
theorem shiftRmw_eq {op : Byte → Bool → Byte × Bool} {i : Instr} (hi : i.mnemonic ≠ .brk) {s : State}
    {r : Byte} {c : Bool} (h : op (i.operand.fetch s).1 s.p.c = (r, c)) :
    let p := { s.p with c := c, z := decide (r = 0), n := r.getLsbD 7 }
    rmwOp i.operand (rmwCycles i.operand.mode) (shiftModify op) noSecond s = .next (s.afterRmw i r p) ∧
    Stored (i.operand.ea s) r s (s.afterRmw i r p) :=
  rmwOp_noSecond hi fun pc bus => by simp only [shiftModify, h]; rfl

/-- Settles O40: each shift is its function in numbers, on A or as the RMW operation. -/
theorem shiftsMoveCarry : Obligations.ShiftsMoveCarry := by
  refine ⟨fun s => ⟨shiftAcc_eq rfl (aslOp_eq ..), shiftAcc_eq rfl (lsrOp_eq ..), shiftAcc_eq rfl (rolOp_eq ..),
    shiftAcc_eq rfl (rorOp_eq ..)⟩, fun i s r c hmode h => ?_⟩
  have hacc : i.operand ≠ .acc := fun ho => hmode (ho ▸ rfl)
  have e := exec_by_mnemonic i s
  rcases h with ⟨hk, rfl, rfl⟩ | ⟨hk, rfl, rfl⟩ | ⟨hk, rfl, rfl⟩ | ⟨hk, rfl, rfl⟩ <;>
    simp only [hk, hacc, if_false] at e <;> rw [e]
  · exact shiftRmw_eq (by simp [hk]) (aslOp_eq ..)
  · exact shiftRmw_eq (by simp [hk]) (lsrOp_eq ..)
  · exact shiftRmw_eq (by simp [hk]) (rolOp_eq ..)
  · exact shiftRmw_eq (by simp [hk]) (rorOp_eq ..)

end Sys2Proof.Machine
end

section
/-! Loads, stores and register moves (41_load_store_transfer.md R150 to R161; 42_alu.md R183 to R186): each is its
shared operation with the one effect of its rule. -/
namespace Sys2Proof.Machine

/-- A write-kind instruction makes its one write of the effective address, and is a store of what it writes
(40_execution_cycle.md R130). -/
theorem writeOp_eq {i : Instr} (hi : i.mnemonic ≠ .brk) (value : State → Byte) (s : State) :
    let t := { s.after i (writeCycles i.operand.mode) with bus := s.bus.write (i.operand.ea s) (value s) }
    writeOp i.operand (writeCycles i.operand.mode) value s = .next t ∧
    Stored (i.operand.ea s) (value s) s t := by
  refine ⟨?_, .of_write _ _ rfl rfl rfl rfl⟩
  rw [writeOp, length_eq hi]
  rfl

/-- An instruction of one byte that is the implied operation: its effect in the state past that byte
(30_encoding.md R88). -/
theorem exec_of_impliedOp {i : Instr} (hi : i.length = 1) {base : Nat} {effect : State → State} {s : State}
    (h : exec i s = impliedOp base effect s) :
    exec i s = .next ((effect { s with pc := s.pc + BitVec.ofNat 16 i.length }).tick base) := by
  rw [h, hi]
  rfl

/-- Settles O31: the loads are the read operation whose effect sets a register with its flags, and a read changes
no plain memory. -/
theorem loadsTakeTheOperand : Obligations.LoadsTakeTheOperand := by
  intro i s
  have e := exec_by_mnemonic i s
  refine ⟨fun hk => ?_, fun hk => ?_, fun hk => ?_, fun hk => ?_, .of_mem (fetch_mem i.operand s)⟩ <;>
    simp only [hk] at e <;> rw [e]
  all_goals exact readOp_eq (by simp [hk]) _ s

/-- Settles O32: the stores are the write operation, each with the register it stores. -/
theorem storesWriteOneByte : Obligations.StoresWriteOneByte := by
  intro i s v h
  have e := exec_by_mnemonic i s
  rcases h with ⟨hk, rfl⟩ | ⟨hk, rfl⟩ | ⟨hk, rfl⟩ | ⟨hk, rfl⟩ <;> simp only [hk] at e <;> rw [e]
  all_goals exact writeOp_eq (by simp [hk]) _ s

/-- Settles O33: each move is the implied operation with the effect of its rule, which sets one register. -/
theorem registerMovesWriteOneRegister : Obligations.RegisterMovesWriteOneRegister :=
  ⟨⟨rfl, rfl, rfl, rfl, rfl, rfl, rfl, rfl, rfl, rfl⟩, fun s =>
    ⟨exec_of_impliedOp rfl (exec_by_mnemonic .tax s), exec_of_impliedOp rfl (exec_by_mnemonic .tay s),
     exec_of_impliedOp rfl (exec_by_mnemonic .txa s), exec_of_impliedOp rfl (exec_by_mnemonic .tya s),
     exec_of_impliedOp rfl (exec_by_mnemonic .tsx s), exec_of_impliedOp rfl (exec_by_mnemonic .txs s),
     exec_of_impliedOp rfl (exec_by_mnemonic .inx s), exec_of_impliedOp rfl (exec_by_mnemonic .iny s),
     exec_of_impliedOp rfl (exec_by_mnemonic .dex s), exec_of_impliedOp rfl (exec_by_mnemonic .dey s)⟩⟩

end Sys2Proof.Machine
end

section
/-! Arithmetic, logic, compares and BIT (42_alu.md R170 to R180): each is the read operation with its effect on A
and the flags, and a read changes no plain memory. -/
namespace Sys2Proof.Machine

open Sys2Proof.Laws

/-! ### The flags of the adder, in numbers -/

/-- The flags of an addition by the exact sums, unsigned and signed (42_alu.md R170). -/
theorem afterAdd_eq (p : Status) (a b : Byte) (cin : Bool) :
    p.afterAdd a b cin =
      let exact := signed a + signed b + cin.toNat
      { p with c := decide (256 ≤ addSum a b cin), z := decide (addResult a b cin = 0),
               n := (addResult a b cin).getLsbD 7, v := decide (exact < -128 ∨ 127 < exact) } := by
  rw [Status.afterAdd, addOverflow_eq]
  rfl

theorem addResult_eq_zero_iff (a b : Byte) (cin : Bool) :
    addResult a b cin = 0 ↔ addSum a b cin % 256 = 0 := by
  rw [← addResult_toNat, ← BitVec.toNat_inj]
  rfl

/-- The complement of a byte has the value `-m - 1` in two's complement (00_scope.md R8). -/
theorem signed_not (m : Byte) : signed (~~~m) = -signed m - 1 := by
  simp only [signed, toInt_eq, BitVec.toNat_not]
  have := m.isLt
  split <;> split <;> omega

/-- The flags of a subtraction, which adds the complement: C tells that there is no borrow, V that the exact
signed difference leaves the byte range (42_alu.md R173). -/
theorem afterAdd_not (p : Status) (a m : Byte) (c : Bool) :
    p.afterAdd a (~~~m) c =
      let borrow := if c then 0 else 1
      let exact := signed a - signed m - (borrow : Nat)
      let r := a - m - BitVec.ofNat 8 borrow
      { p with c := decide (m.toNat + borrow ≤ a.toNat), z := decide (r = 0), n := r.getLsbD 7,
               v := decide (exact < -128 ∨ 127 < exact) } := by
  have hc : 256 ≤ addSum a (~~~m) c ↔ m.toNat + (if c then 0 else 1) ≤ a.toNat := by
    have := m.isLt
    cases c <;> simp [addSum, BitVec.toNat_not] <;> omega
  have hv : signed a + signed (~~~m) + c.toNat = signed a - signed m - ((if c then 0 else 1 : Nat) : Int) := by
    rw [signed_not]
    cases c <;> simp <;> omega
  simp only [afterAdd_eq, hc, hv, addResult_cpl]

/-! ### Addition and subtraction -/

/-- Settles O34: ADC is the read operation whose effect is the adder. -/
theorem adcAddsWithCarry : Obligations.AdcAddsWithCarry := by
  intro i s hk
  have e := exec_by_mnemonic i s
  simp only [hk] at e
  refine ⟨?_, .of_mem (fetch_mem i.operand s)⟩
  rw [e, readOp_eq (by simp [hk])]
  simp only [adc, State.addToA, afterAdd_eq, addResult_eq_zero_iff]
  rfl

/-- Settles O35: SBC is the read operation whose effect adds the complement of M. -/
theorem sbcSubtractsWithBorrow : Obligations.SbcSubtractsWithBorrow := by
  intro i s hk
  have e := exec_by_mnemonic i s
  simp only [hk] at e
  refine ⟨?_, .of_mem (fetch_mem i.operand s)⟩
  rw [e, readOp_eq (by simp [hk])]
  simp only [sbc, State.addToA, cpl_eq_xor, afterAdd_not, addResult_cpl]
  rfl

/-! ### Logic, compares and BIT -/

/-- Settles O36: each is the read operation whose effect sets A to the bitwise result. -/
theorem logicCombinesWithA : Obligations.LogicCombinesWithA := by
  intro i s
  have e := exec_by_mnemonic i s
  refine ⟨fun hk => ?_, fun hk => ?_, fun hk => ?_, .of_mem (fetch_mem i.operand s)⟩ <;>
    simp only [hk] at e <;> rw [e]
  all_goals exact readOp_eq (by simp [hk]) _ s

/-- Settles O37: each is the read operation whose effect compares its register with M. -/
theorem comparesSetFlagsOnly : Obligations.ComparesSetFlagsOnly := by
  intro i s
  have e := exec_by_mnemonic i s
  refine ⟨fun hk => ?_, fun hk => ?_, fun hk => ?_, .of_mem (fetch_mem i.operand s)⟩ <;>
    simp only [hk] at e <;> rw [e]
  all_goals exact readOp_eq (by simp [hk]) _ s

/-- Settles O38: BIT is the read operation whose effect tests M against A. -/
theorem bitTestsMemory : Obligations.BitTestsMemory := by
  intro i s hk
  have e := exec_by_mnemonic i s
  simp only [hk] at e
  exact ⟨e.trans (readOp_eq (by simp [hk]) _ s), .of_mem (fetch_mem i.operand s)⟩

end Sys2Proof.Machine
end

section
/-! Stack instructions, flag instructions and NOP (44_stack_flags_nop.md R210 to R221): each is its shared operation,
with one push, one pull, one flag or nothing as its effect. -/
namespace Sys2Proof.Machine

open Sys2Proof.Laws

/-! ### Pushes and pulls -/

section
variable {i : Instr} (hi : i.length = 1) {base : Nat} {s : State}
include hi

/-- An instruction of one byte whose effect is one push makes one write, at `$0100 + SP`, which is a store
(40_execution_cycle.md R124). -/
theorem exec_of_push {value : State → Byte} {v : Byte}
    (h : exec i s = impliedOp base (fun t => t.push (value t)) s) (hv : value (s.advance 1) = v) :
    let t := { s.after i base with sp := s.sp - 1, bus := s.bus.write (stackAddr s.sp) v }
    exec i s = .next t ∧ Stored (stackAddr s.sp) v s t := by
  refine ⟨?_, .of_write _ _ rfl rfl rfl rfl⟩
  rw [h, impliedOp, hv, State.push_eq, State.after, hi]
  rfl

/-- An instruction of one byte whose effect takes one pulled byte reads it at `$0100 + SP`, after the increment of
SP (40_execution_cycle.md R125). -/
theorem exec_of_pull {effect : Byte → State → State}
    (h : exec i s = impliedOp base (fun t => effect t.pull.1 t.pull.2) s) :
    exec i s = .next ((effect (s.read (stackAddr (s.sp + 1))).1
      { s with pc := s.pc + BitVec.ofNat 16 i.length, sp := s.sp + 1 }).tick base) := by
  rw [h, impliedOp, State.pull_eq, hi]
  rfl

end

/-- Settles O41: both are one push, of A or of P with B and U set. -/
theorem pushesWriteTheStack : Obligations.PushesWriteTheStack := by
  refine ⟨⟨rfl, rfl⟩, fun s => ?_⟩
  obtain ⟨hpha, hstoredA⟩ := exec_of_push rfl (exec_by_mnemonic .pha s) rfl
  obtain ⟨hphp, hstoredP⟩ := exec_of_push rfl (exec_by_mnemonic .php s) (pushedByInstruction_eq s.p)
  exact ⟨hpha, hstoredA, hphp, hstoredP, stackAddr_toNat s.sp⟩

/-- Settles O42: both take one pulled byte, into A with its flags or into P with B clear and U set. -/
theorem pullsReadTheStack : Obligations.PullsReadTheStack := by
  refine ⟨⟨rfl, rfl⟩, fun s => ⟨?_, ?_, by rw [State.read_stackAddr]⟩⟩
  · exact exec_of_pull (effect := fun m t => t.setA m) rfl (exec_by_mnemonic .pla s)
  · rw [← pulledByPlp_eq]
    exact exec_of_pull (effect := fun m t => t.setP (.pulledByPlp m)) rfl (exec_by_mnemonic .plp s)

/-- What PLP makes of the byte PHP pushed does not depend on the B and U pushed (44_stack_flags_nop.md R210, R213). -/
theorem pulled_of_pushed (v : Byte) : ((v ||| 0x30) &&& 0xEF) ||| 0x20 = (v &&& 0xEF) ||| 0x20 := by
  revert v; decide

/-- Settles O43: PLP reads the byte PHP has stored, at the address SP comes back to. -/
theorem phpThenPlpRestoresStatus : Obligations.PhpThenPlpRestoresStatus := by
  intro s t u hphp hplp
  obtain ⟨-, -, hpushed, hstored, haddr⟩ := pushesWriteTheStack.2 s
  obtain ⟨-, hpulled, -⟩ := pullsReadTheStack.2 t
  cases hpushed.symm.trans hphp
  cases hpulled.symm.trans hplp
  have hsp : s.sp - 1 + 1 = s.sp := BitVec.sub_add_cancel s.sp 1
  have hread := State.read_of_peek (hstored.written (by have := s.sp.isLt; omega))
  refine ⟨?_, hsp, rfl, rfl, rfl⟩
  simp only [hsp, hread, toByte_ofByte, pulled_of_pushed]

/-! ### Flag instructions -/

/-- Settles O44: each is the implied operation that writes its one flag. -/
theorem flagInstructionsWriteOneFlag : Obligations.FlagInstructionsWriteOneFlag :=
  ⟨⟨rfl, rfl, rfl, rfl, rfl, rfl, rfl⟩, fun s =>
    ⟨exec_of_impliedOp rfl (exec_by_mnemonic .clc s), exec_of_impliedOp rfl (exec_by_mnemonic .sec s),
     exec_of_impliedOp rfl (exec_by_mnemonic .cli s), exec_of_impliedOp rfl (exec_by_mnemonic .sei s),
     exec_of_impliedOp rfl (exec_by_mnemonic .clv s), exec_of_impliedOp rfl (exec_by_mnemonic .cld s),
     exec_of_impliedOp rfl (exec_by_mnemonic .sed s)⟩⟩

/-! ### NOP -/

/-- The page-cross cycle is the one that `Instr.readTime` adds to the base count (40_execution_cycle.md R132). -/
theorem readTime_eq (i : Instr) (s : State) :
    i.readTime s = readCycles i.operand.mode + i.operand.penalty s := by
  rw [Instr.readTime, Operand.penalty]
  cases i.operand.crossed s <;> rfl

/-- Settles O45: every NOP is the operation that only moves PC and counts cycles. -/
theorem nopsOnlyConsumeBytesAndCycles : Obligations.NopsOnlyConsumeBytesAndCycles := by
  intro i s hk
  have e := exec_by_mnemonic i s
  simp only [hk] at e
  rw [e, nopOp, readTime_eq, length_eq (by simp [hk])]
  rfl

end Sys2Proof.Machine
end

section
/-! Control transfer (45_control_transfer.md R230 to R245): the branches are one operation with eight conditions,
JMP indirect reads its pointer on one page, and what the pushes and pulls of a 16-bit value do to the stack gives
JSR, RTS and RTI. -/
namespace Sys2Proof.Machine

open Sys2Proof.Laws

/-! ### Branches -/

/-- The cycles of a taken branch: a third, and a fourth when the target is on another page
(45_control_transfer.md R230). -/
theorem takenCycles_eq (next target : Word) :
    2 + (1 + (pageCross next target).toNat) = if hiByte target = hiByte next then 3 else 4 := by
  by_cases h : hiByte target = hiByte next
  · rw [pageCross, bne_eq_false_iff_eq.mpr h, if_pos h]; rfl
  · rw [pageCross, bne_iff_ne.mpr h, if_neg h]; rfl

/-- A branch is what its condition makes of it in the state it begins in (45_control_transfer.md R230). -/
theorem branchOp_eq (cond : State → Bool) (off : Byte) (s : State) :
    branchOp cond off s = .next (s.branched (cond s) off) := by
  cases h : cond s with
  | false => simp only [branchOp, State.branched, h]; rfl
  | true =>
    simp only [branchOp, State.branched, h, if_true, takenCycles_eq]
    rfl

/-- Settles O46: each branch is the branch operation with the condition of its rule. -/
theorem branchesTestOneFlag : Obligations.BranchesTestOneFlag := fun s off =>
  ⟨⟨rfl, rfl, rfl, rfl, rfl, rfl, rfl, rfl⟩,
    branchOp_eq (fun t => !t.p.n) off s, branchOp_eq (fun t => t.p.n) off s,
    branchOp_eq (fun t => !t.p.v) off s, branchOp_eq (fun t => t.p.v) off s,
    branchOp_eq (fun t => !t.p.c) off s, branchOp_eq (fun t => t.p.c) off s,
    branchOp_eq (fun t => !t.p.z) off s, branchOp_eq (fun t => t.p.z) off s⟩

/-! ### Jumps -/

/-- The pointer's second byte is the next one on the same page, in numbers (30_encoding.md R99). -/
theorem mkWord_hiByte_loByte_add_one (a : Word) :
    mkWord (hiByte a) (loByte a + 1) = BitVec.ofNat 16 (a.toNat / 256 * 256 + (a.toNat + 1) % 256) := by
  apply BitVec.eq_of_toNat_eq
  have := a.isLt
  have h : (loByte a + 1).toNat = (a.toNat + 1) % 256 := by
    rw [BitVec.toNat_add, loByte_toNat]
    exact Nat.mod_add_mod ..
  rw [mkWord_toNat, hiByte_toNat, h, BitVec.toNat_ofNat]
  omega

/-- Settles O47: JMP indirect is its two reads, and a read changes no plain memory. -/
theorem jumpsSetPcWithPageWrap : Obligations.JumpsSetPcWithPageWrap := by
  refine fun s a => ⟨rfl, rfl, rfl, ?_, .of_mem ?_⟩
  · rw [← mkWord_hiByte_loByte_add_one]
    rfl
  · simp only [Bus.read_mem]

/-! ### The stack words -/

/-- Pushing a 16-bit value is two writes of the stack page, high byte first (45_control_transfer.md R241). -/
theorem State.pushWord_eq (s : State) (v : Word) :
    s.pushWord v = { (s.write (stackAddr s.sp) (hiByte v)).write (stackAddr (s.sp - 1)) (loByte v) with
      sp := s.sp - 2 } := by
  have h : s.sp - 1 - 1 = s.sp - 2 := by bv_omega
  simp only [State.pushWord, State.push_eq, State.write, h]

/-- Pulling a 16-bit value is two reads of the stack page, low byte first (45_control_transfer.md R242). -/
theorem State.pullWord_eq (s : State) :
    s.pullWord = (mkWord (s.read (stackAddr (s.sp + 2))).1 (s.read (stackAddr (s.sp + 1))).1,
      { s with sp := s.sp + 2 }) := by
  have h : s.sp + 1 + 1 = s.sp + 2 := BitVec.add_assoc s.sp 1 1
  simp only [State.pullWord, State.pull_eq, State.read_stackAddr, h]

/-- Two pushes are read back where they went, and leave every other byte of memory (40_execution_cycle.md R124). -/
theorem peek_of_twoPushes {s t : State} {v1 v2 : Byte}
    (ht : t.bus = (s.bus.write (stackAddr s.sp) v1).write (stackAddr (s.sp - 1)) v2) :
    t.peek (stackAddr s.sp) = some v1 ∧ t.peek (stackAddr (s.sp - 1)) = some v2 ∧
    ∀ w : Word, locate w ≠ locate (stackAddr s.sp) → locate w ≠ locate (stackAddr (s.sp - 1)) →
      t.peek w = s.peek w := by
  have h1 : Stored (stackAddr s.sp) v1 s (s.write (stackAddr s.sp) v1) := .of_write _ _ rfl rfl rfl rfl
  have h2 : Stored (stackAddr (s.sp - 1)) v2 (s.write (stackAddr s.sp) v1) t := .of_write _ _ rfl rfl rfl ht
  have lt : ∀ sp : Byte, (stackAddr sp).toNat < 0x2000 := fun sp => by
    rw [stackAddr_toNat]; omega
  have ne : locate (stackAddr s.sp) ≠ locate (stackAddr (s.sp - 1)) := by
    rw [ne_eq, stackAddr_inj]; bv_omega
  exact ⟨(h2.frame (lt _) _ ne).trans (h1.written (lt _)), h2.written (lt _),
    fun w e1 e2 => (h2.frame (lt _) w e2).trans (h1.frame (lt _) w e1)⟩

/-! ### Subroutines -/

/-- Settles O48: JSR pushes one 16-bit value and sets PC. -/
theorem jsrPushesReturnAddress : Obligations.JsrPushesReturnAddress := by
  refine fun s a => ⟨?_, peek_of_twoPushes rfl⟩
  have e : exec (.jsr a) s = execJsr a s := rfl
  rw [e, execJsr, State.pushWord_eq]
  rfl

/-- Settles O49: RTS pulls one 16-bit value, and a read of the stack has no side effect. -/
theorem rtsPullsAndAddsOne : Obligations.RtsPullsAndAddsOne := by
  refine ⟨rfl, fun s => ?_⟩
  have e : exec .rts s = execRts s := exec_by_mnemonic .rts s
  simp only [State.read_stackAddr, and_true]
  rw [exec_of_impliedOp rfl e]
  simp only [State.pullWord_eq, State.read_stackAddr]
  rfl

/-- Settles O50: RTS reads the two bytes JSR has pushed, at the addresses SP comes back to. -/
theorem jsrThenRtsReturns : Obligations.JsrThenRtsReturns := by
  intro s t u a h
  obtain ⟨hjsr, hhi, hlo, -⟩ := jsrPushesReturnAddress s a
  cases hjsr.symm.trans h
  refine ⟨rfl, hhi, hlo, fun hsp huhi hulo => ⟨_, (rtsPullsAndAddsOne.2 u).1, ?_, ?_⟩⟩
  · have h1 : u.sp + 1 = s.sp - 1 := by rw [hsp]; dsimp only; bv_omega
    have h2 : u.sp + 2 = s.sp := by rw [hsp]; exact BitVec.sub_add_cancel s.sp 2
    simp only [h1, h2, State.read_of_peek (hulo.trans hlo), State.read_of_peek (huhi.trans hhi),
      mkWord_hiByte_loByte]
    exact BitVec.add_assoc s.pc 2 1
  · dsimp only
    rw [hsp]
    exact BitVec.sub_add_cancel s.sp 2

/-! ### RTI and BRK -/

/-- Returning from an interrupt is three reads of the stack page: the status byte, then the address
(45_control_transfer.md R244). -/
theorem State.returnFromInterrupt_eq (s : State) :
    s.returnFromInterrupt =
      { s with p := Status.ofByte ((s.read (stackAddr (s.sp + 1))).1 ||| 0x20), sp := s.sp + 3,
               pc := mkWord (s.read (stackAddr (s.sp + 3))).1 (s.read (stackAddr (s.sp + 2))).1 } := by
  have h2 : s.sp + 1 + 1 = s.sp + 2 := BitVec.add_assoc s.sp 1 1
  have h3 : s.sp + 1 + 2 = s.sp + 3 := BitVec.add_assoc s.sp 1 2
  simp only [State.returnFromInterrupt, State.pull_eq, State.pullWord_eq, State.read_stackAddr, pulledByRti_eq,
    h2, h3]

/-- Settles O51: RTI is the return from an interrupt, and a read of the stack has no side effect. -/
theorem rtiRestoresStatusAndPc : Obligations.RtiRestoresStatusAndPc := by
  refine ⟨rfl, fun s => ?_⟩
  have e : exec .rti s = execRti s := exec_by_mnemonic .rti s
  simp only [State.read_stackAddr, and_true]
  rw [exec_of_impliedOp rfl e]
  simp only [State.returnFromInterrupt_eq, State.read_stackAddr]
  rfl

/-- Settles O52: with `debugBreak` off BRK is the entry that interrupts share, with its own return address and
status byte. -/
theorem brkEntersThroughIrqVector : Obligations.BrkEntersThroughIrqVector := by
  refine ⟨rfl, fun s => ⟨fun hd => ?_, fun hd => ⟨?_, s.entered_memory ..⟩⟩⟩
  · exact (exec_by_mnemonic .brk s).trans (if_pos hd)
  · rw [← pushedByInstruction_eq, ← State.takeInterrupt_eq]
    exact (exec_by_mnemonic .brk s).trans (if_neg (ne_true_of_eq_false hd))

end Sys2Proof.Machine
end

section
/-! The composed unofficial opcodes (46_unofficial.md R260 to R268): an RMW instruction whose second operation takes
the byte written into A, or compares A with it. -/
namespace Sys2Proof.Machine

open Sys2Proof.Laws

/-- A composed opcode writes the byte of its first operation, and its second operation, which sees the flags `q` of
the first, leaves `a` and the flags `p`; it is a store (46_unofficial.md R260). -/
theorem rmwOp_composed {i : Instr} (hi : i.mnemonic ≠ .brk) {modify : Byte → State → Byte × State}
    {second : Byte → State → State} {s : State} {r a : Byte} {p q : Status}
    (hm : ∀ pc bus, modify (i.operand.fetch s).1 { s with pc := pc, bus := bus } =
      (r, { s with pc := pc, bus := bus, p := q }))
    (hs : ∀ pc bus, second r { s with pc := pc, bus := bus, p := q } =
      { s with pc := pc, bus := bus, a := a, p := p }) :
    let t := { s.afterRmw i r p with a := a }
    rmwOp i.operand (rmwCycles i.operand.mode) modify second s = .next t ∧ Stored (i.operand.ea s) r s t := by
  refine ⟨?_, .of_fetch i.operand rfl⟩
  rw [rmwOp_eq hi]
  simp only [hm, State.write, hs]
  rfl

/-- A shift or rotate that combines the byte written into A: C is the bit shifted out, N and Z are A's
(46_unofficial.md R261 to R263). -/
theorem carryRmw_eq {op : Byte → Bool → Byte × Bool} {i : Instr} (hi : i.mnemonic ≠ .brk)
    {second : Byte → State → State} {s : State} {r a : Byte} {c : Bool}
    (h : op (i.operand.fetch s).1 s.p.c = (r, c))
    (hs : ∀ t : State, t.a = s.a → second r t = t.setA a) :
    let t := { s.afterRmw i r { s.p with c := c, z := decide (a = 0), n := a.getLsbD 7 } with a := a }
    rmwOp i.operand (rmwCycles i.operand.mode) (carryModify op) second s = .next t ∧
    Stored (i.operand.ea s) r s t :=
  rmwOp_composed (q := { s.p with c := c }) hi (fun pc bus => by simp only [carryModify, h]; rfl)
    fun _ _ => hs _ rfl

/-- Settles O53: each is the RMW operation of its shift in numbers, and its second operation sets A. -/
theorem composedShiftsCombineWithA : Obligations.ComposedShiftsCombineWithA := by
  intro i s r a c m h
  have e := exec_by_mnemonic i s
  rcases h with ⟨hk, rfl, rfl, rfl⟩ | ⟨hk, rfl, rfl, rfl⟩ | ⟨hk, rfl, rfl, rfl⟩ <;>
    simp only [hk] at e <;> rw [e]
  · exact carryRmw_eq (by simp [hk]) (aslOp_eq ..) fun t ht => by rw [oraA, ht]
  · exact carryRmw_eq (by simp [hk]) (rolOp_eq ..) fun t ht => by rw [andA, ht]
  · exact carryRmw_eq (by simp [hk]) (lsrOp_eq ..) fun t ht => by rw [eorA, ht]

/-- A composed opcode whose second operation is the adder, which overwrites the carry `c` of the first: A and the
flags by the exact sums (42_alu.md R170). -/
theorem addRmw_eq {i : Instr} (hi : i.mnemonic ≠ .brk) {modify : Byte → State → Byte × State}
    {second : Byte → State → State} {s : State} {r op : Byte} {c cin : Bool}
    (hm : ∀ pc bus, modify (i.operand.fetch s).1 { s with pc := pc, bus := bus } =
      (r, { s with pc := pc, bus := bus, p := { s.p with c := c } }))
    (hs : ∀ t : State, t.p.c = c → second r t = t.addToA op cin) :
    let sum := s.a.toNat + op.toNat + cin.toNat
    let total := signed s.a + signed op + cin.toNat
    let t := { s.afterRmw i r { s.p with c := decide (256 ≤ sum), z := decide (sum % 256 = 0),
                                         n := (BitVec.ofNat 8 sum).getLsbD 7,
                                         v := decide (total < -128 ∨ 127 < total) } with
      a := BitVec.ofNat 8 sum }
    rmwOp i.operand (rmwCycles i.operand.mode) modify second s = .next t ∧ Stored (i.operand.ea s) r s t := by
  refine rmwOp_composed hi hm fun pc bus => ?_
  rw [hs _ rfl]
  simp only [State.addToA, afterAdd_eq, addResult_eq_zero_iff]
  rfl

/-- Settles O54: RRA and ISC are the RMW operation with the adder second, DCP with the compare. -/
theorem composedArithmeticUpdatesA : Obligations.ComposedArithmeticUpdatesA := by
  refine ⟨?_, fun i s hk => ?_⟩
  · intro i s r op cin m h
    have e := exec_by_mnemonic i s
    rcases h with ⟨hk, rfl, rfl, rfl⟩ | ⟨hk, rfl, rfl, rfl⟩ <;> simp only [hk] at e <;> rw [e]
    · exact addRmw_eq (by simp [hk]) (fun pc bus => by simp only [carryModify, rorOp_eq]; rfl)
        fun t ht => by rw [adc, ht]
    · exact addRmw_eq (by simp [hk]) (fun _ _ => rfl) fun t ht => by rw [sbc, cpl_eq_xor, ht]
  · have e := exec_by_mnemonic i s
    simp only [hk] at e
    rw [e]
    exact rmwOp_composed (by simp [hk]) (fun _ _ => rfl) fun _ _ => rfl

end Sys2Proof.Machine
end

section
/-! The other unofficial opcodes (46_unofficial.md R269 to R285): the immediate operations with their special flags,
JAM, and the unstable group. -/
namespace Sys2Proof.Machine

open Sys2Proof.Laws

/-! ### Immediate operations -/

/-- A read-kind instruction with an immediate operand has 2 bytes, takes 2 cycles and makes no access
(30_encoding.md R90). -/
theorem exec_of_immediate {i : Instr} {v : Byte} (hi : i.length = 2) (ho : i.operand = .imm v)
    {effect : Byte → State → State} {s : State}
    (h : exec i s = readOp i.operand (readCycles i.operand.mode) effect s) :
    exec i s = .next ((effect v { s with pc := s.pc + BitVec.ofNat 16 i.length }).tick 2) := by
  rw [h, ho, hi]
  rfl

theorem half_eq_zero_iff (v : Byte) : BitVec.ofNat 8 (v.toNat / 2) = 0 ↔ v.toNat < 2 := by
  revert v; decide

/-- A shift to the right clears bit 7 (43_shift_rotate.md R202). -/
theorem half_msb (v : Byte) : (BitVec.ofNat 8 (v.toNat / 2)).getLsbD 7 = false := by
  revert v; decide

/-- A rotate to the right moves the carry into bit 7 (43_shift_rotate.md R204). -/
theorem rotated_msb (v : Byte) (c : Bool) : (BitVec.ofNat 8 (v.toNat / 2 + 128 * c.toNat)).getLsbD 7 = c := by
  revert v c; decide

/-- Settles O55: each is the read operation of an immediate with its effect; what the flags of ALR, ARR and AXS say
of their results is in the numbers of the operands. -/
theorem immediateUnofficialOperations : Obligations.ImmediateUnofficialOperations := by
  refine fun s op v => ⟨?_, ?_, ?_, ?_⟩
  · exact exec_of_immediate rfl rfl (exec_by_mnemonic (.anc op v) s)
  · rw [exec_of_immediate rfl rfl (exec_by_mnemonic (.alr v) s)]
    simp only [alr, lsrOp_eq, Status.afterShift, Status.setNZ, half_eq_zero_iff, half_msb]
    rfl
  · rw [exec_of_immediate rfl rfl (exec_by_mnemonic (.arr v) s)]
    simp only [arr, rorOp_eq, Status.afterArr, Status.setNZ, rotated_msb]
    rfl
  · rw [exec_of_immediate rfl rfl (exec_by_mnemonic (.axs v) s)]
    simp only [axs, Status.afterAxs, Status.setNZ, sub_eq_zero_iff]
    rfl

/-! ### JAM -/

/-- Only a user reset among the host's events sets the pending reset (70_reset_and_hazards.md R351). -/
theorem HostEvent.foldl_apply_resetPending {es : List HostEvent} (h : HostEvent.userReset ∉ es) (s : State) :
    (es.foldl (fun t e => HostEvent.apply e t) s).resetPending = s.resetPending := by
  induction es generalizing s with
  | nil => rfl
  | cons e es ih =>
    obtain ⟨he, hes⟩ := not_or.mp (mt List.mem_cons.mpr h)
    refine (ih hes _).trans ?_
    cases e with
    | userReset => exact absurd rfl he
    | controller | apuSequenceEnd | mapperIrq | quit => rfl

theorem State.beginStep_resetPending {s : State} (h : HostEvent.userReset ∉ s.arriving) :
    s.beginStep.resetPending = s.resetPending :=
  HostEvent.foldl_apply_resetPending h s

/-- No host event jams the core or ends a jam (70_reset_and_hazards.md R351). -/
@[simp] theorem State.beginStep_jammed (s : State) : s.beginStep.jammed = s.jammed := by
  rw [s.beginStep_keeps.1]

/-- A jammed core that no reset frees has no step (40_execution_cycle.md R122). -/
theorem turn_of_jammed {s : State} (hr : s.resetPending = false) (hj : s.jammed = true) :
    turn s = .fault .jammed := by
  simp only [turn, hr, hj, Bool.false_eq_true, if_false, if_true]

/-- Settles O56: the boundary brings no reset and leaves the jam, and a jammed core faults. -/
theorem jamHaltsTheCore : Obligations.JamHaltsTheCore := by
  refine ⟨fun s op => exec_by_mnemonic (.jam op) s, fun s hm hj hr hquit hreset => ?_⟩
  have hq : s.quits = false := by simpa [State.quits] using hquit
  rw [step_of_unmarked hm hq]
  exact turn_of_jammed ((State.beginStep_resetPending hreset).trans hr) (s.beginStep_jammed.trans hj)

/-! ### The unstable group -/

/-- Settles O57: each is the unstable operation, with a fault in strict mode or without. -/
theorem unstableOpcodesStop : Obligations.UnstableOpcodesStop := by
  intro s i
  have e := exec_by_mnemonic i s
  refine ⟨fun h => ?_, fun h => ?_⟩
  · rcases h with hk | hk | hk <;> simp only [hk] at e <;> exact e
  · have hx : exec i s = unstableOp i.opcode true s := by
      rcases h with hk | hk | hk | hk <;> simpa only [hk] using e
    refine ⟨fun hstrict => ?_, fun hstrict => ?_⟩ <;> rw [hx, unstableOp, hstrict] <;> rfl

end Sys2Proof.Machine
end

section
/-! The order of a step (40_execution_cycle.md R122; 60_exceptions.md R303, R310), the entries of NMI and IRQ
(60_exceptions.md R303 to R306), and the launch parameters no step changes (60_exceptions.md R334). -/
namespace Sys2Proof.Machine

open Sys2Proof.Laws

/-! ### The launch parameters -/

section
variable (s : State)

@[simp] theorem State.beginStep_launch : s.beginStep.launch = s.launch := by rw [s.beginStep_keeps.1]

@[simp] theorem State.resetSequence_launch : s.resetSequence.launch = s.launch := rfl

@[simp] theorem State.serviceInterrupt_launch : s.serviceInterrupt.launch = s.launch := by
  unfold State.serviceInterrupt
  split
  · rw [State.enterNmi_eq]; rfl
  · split
    · rw [State.enterIrq_eq]; rfl
    · rfl

@[simp] theorem State.fetchInstr_launch : s.fetchInstr.2.launch = s.launch := by rw [s.fetchInstr_keeps.1]

@[simp] theorem State.oamDma_launch : s.oamDma.launch = s.launch := by rw [s.oamDma_keeps.1]

@[simp] theorem State.advancePpu_launch : s.advancePpu.launch = s.launch := by rw [s.advancePpu_keeps.1]

end

/-- No instruction changes a launch parameter (60_exceptions.md R334). -/
theorem exec_launch {i : Instr} {s t : State} (h : exec i s = .next t) : t.launch = s.launch := by
  obtain ⟨m, n, pc, b, -, rfl⟩ := exec_next h
  obtain ⟨-, -, -, -, -, hlaunch, -⟩ := effectOf_keeps i.mnemonic i.operand m s
  exact hlaunch

/-- Settles O6: `step_next` says what the step was, and none of its parts moves a launch parameter. -/
theorem stepKeepsLaunchParameters : Obligations.StepKeepsLaunchParameters := by
  intro s t h
  have executed : ∀ {u v : State}, (u = s.beginStep.resetSequence ∨ u = s.beginStep.serviceInterrupt) →
      exec u.fetchInstr.1 u.fetchInstr.2 = .next v → v.launch = s.launch ∧ v.bus.cart = s.bus.cart := by
    intro u v hu hx
    rw [exec_launch hx, (exec_steady hx).1.cart, u.fetchInstr_launch, u.fetchInstr_steady.cart]
    rcases hu with rfl | rfl <;> simp
  obtain ⟨-, -, ⟨u, hx, -, hu⟩ | ⟨u, v, hx, -, rfl, hu⟩ | ⟨-, rfl⟩⟩ := step_next h
  · exact executed hu hx
  · rw [State.advancePpu_launch, State.advancePpu_cart, State.oamDma_launch, v.oamDma_steady.cart]
    exact executed hu hx
  · simp [State.stallStep]

/-! ### The order of a step -/

section
variable {s : State}

/-- A pending reset comes before everything else in a turn (60_exceptions.md R303). -/
theorem turn_of_reset (h : s.resetPending = true) : turn s = runInstruction s.resetSequence := by
  simp only [turn, h, if_true]

/-- A latched NMI is the interrupt entered (60_exceptions.md R303). -/
theorem State.serviceInterrupt_of_nmi (h : s.nmiLatch = true) : s.serviceInterrupt = s.enterNmi := by
  simp only [State.serviceInterrupt, h, if_true]

/-- With no NMI latched, an IRQ that is not masked is the interrupt entered (60_exceptions.md R303, R304). -/
theorem State.serviceInterrupt_of_irq (hn : s.nmiLatch = false) (hl : s.irqLine = true) (hi : s.p.i = false) :
    s.serviceInterrupt = s.enterIrq := by
  simp only [State.serviceInterrupt, hn, hl, hi, Bool.false_eq_true, Bool.not_false, Bool.and_self, if_false,
    if_true]

end

/-- Settles O8: each case is a way through `turn`, and the last three the ways through `serviceInterrupt`. -/
theorem stepTakesEventsInPriorityOrder : Obligations.StepTakesEventsInPriorityOrder := by
  intro s hm hq
  rw [step_of_unmarked hm hq]
  refine ⟨turn_of_reset, turn_of_jammed, turn_of_stall, fun hr hj hs => ?_⟩
  rw [turn_of_running hr hj hs]
  exact ⟨fun hn => by rw [State.serviceInterrupt_of_nmi hn],
    fun hn hl hi => by rw [State.serviceInterrupt_of_irq hn hl hi],
    fun hn hi => by rw [State.serviceInterrupt_of_none hn hi]⟩

/-! ### The entries of NMI and IRQ -/

/-- Settles O13: the NMI entry is the shared one with the latch cleared, which no byte of memory sees. -/
theorem nmiEntryPushesAndVectors : Obligations.NmiEntryPushesAndVectors := by
  intro s hn
  dsimp only
  rw [State.serviceInterrupt_of_nmi hn, State.enterNmi_eq, pushedByInterrupt_eq]
  exact ⟨rfl, s.entered_memory s.pc _ nmiVector⟩

/-- A read of cartridge space leaves the APU. -/
theorem Bus.read_apu_of_cart (b : Bus) {w : Word} (hw : 0x4020 ≤ w.toNat) : (b.read w).2.apu = b.apu := by
  simp only [Bus.read, locate_cart hw, Bus.readCart]
  split <;> rfl

/-- The stack writes of an entry leave both inputs of the IRQ line. -/
theorem Bus.pushThree_keeps (b : Bus) (sp v1 v2 v3 : Byte) :
    (b.pushThree sp v1 v2 v3).apu = b.apu ∧ (b.pushThree sp v1 v2 v3).mapperIrq = b.mapperIrq := by
  simp only [Bus.pushThree, Bus.write_stackAddr, Bus.setRam, and_self]

/-- The entry of an interrupt clears no IRQ source (60_exceptions.md R304). -/
theorem State.entered_irqLine (s : State) (ret : Word) (st : Byte) :
    (s.entered ret st irqVector).irqLine = s.irqLine := by
  obtain ⟨hapu, hmapper⟩ := s.bus.pushThree_keeps s.sp (hiByte ret) (loByte ret) st
  have hlo : 0x4020 ≤ irqVector.toNat := by decide
  have hhi : 0x4020 ≤ (irqVector + 1).toNat := by decide
  simp only [State.irqLine, State.entered, Bus.read_apu_of_cart _ hlo, Bus.read_apu_of_cart _ hhi,
    Bus.read_mapperIrq, hapu, hmapper]

/-- Settles O14: by whether the IRQ is masked; its entry is the shared one, which leaves the IRQ line. -/
theorem irqEntryHonoursMask : Obligations.IrqEntryHonoursMask := by
  refine fun s hn => ⟨fun hl hi => ?_, State.serviceInterrupt_of_none hn⟩
  rw [State.serviceInterrupt_of_irq hn hl hi, State.enterIrq_eq, pushedByInterrupt_eq]
  exact ⟨rfl, (s.entered_irqLine ..).trans hl, s.entered_memory ..⟩

end Sys2Proof.Machine
end

section
/-! The dots (60_exceptions.md R302, R326, R330, R331): what one dot does to the PPU's place in its frame, to vblank
and to the NMI output, and how many dots a step has. -/
namespace Sys2Proof.Machine

/-! ### One dot -/

section
variable (p : Ppu) (k : Nat)

/-- Moving to the next dot changes only the PPU's place in its frame. -/
theorem Ppu.nextPosition_keeps :
    p.nextPosition = { p with line := p.nextPosition.line, dot := p.nextPosition.dot,
                              frame := p.nextPosition.frame } := by
  unfold Ppu.nextPosition
  repeat' split
  all_goals rfl

/-- The dot pipeline changes only `v` and the two sprite flags (log 13). -/
theorem Ppu.renderEvents_keeps :
    p.renderEvents k = { p with v := (p.renderEvents k).v, sprite0Hit := (p.renderEvents k).sprite0Hit,
                                spriteOverflow := (p.renderEvents k).spriteOverflow } := by
  unfold Ppu.renderEvents
  repeat' split
  all_goals rfl

/-- The events of a dot change only vblank and the NMI output, by the place of the dot (60_exceptions.md R326). -/
theorem Ppu.vblankEvents_eq :
    p.vblankEvents = { p with
      vblank := if p.atVblankDot then true else if p.atClearDot then false else p.vblank
      nmiOut := if p.atVblankDot then p.nmiOut || p.ctrl.getLsbD 7
        else if p.atClearDot then false else p.nmiOut } := by
  rw [Ppu.vblankEvents]
  repeat' split
  all_goals rfl

/-- A dot, by the place it enters: what it does to vblank and the NMI output, and what it leaves
(60_exceptions.md R326; log 13). -/
theorem Ppu.stepDot_eq :
    p.stepDot k = { p.nextPosition with
      vblank := if p.nextPosition.atVblankDot then true else if p.nextPosition.atClearDot then false else p.vblank
      nmiOut := if p.nextPosition.atVblankDot then p.nmiOut || p.ctrl.getLsbD 7
        else if p.nextPosition.atClearDot then false else p.nmiOut
      v := (p.stepDot k).v, sprite0Hit := (p.stepDot k).sprite0Hit
      spriteOverflow := (p.stepDot k).spriteOverflow } := by
  rw [Ppu.stepDot, Ppu.vblankEvents_eq, Ppu.renderEvents_keeps, Ppu.nextPosition_keeps]
  rfl

/-- Dot 1 of a line is entered from dot 0 of that line, and from nowhere else. -/
theorem Ppu.nextPosition_dot_one_iff (l : Nat) :
    p.nextPosition.line = l ∧ p.nextPosition.dot = 1 ↔ p.line = l ∧ p.dot = 0 := by
  unfold Ppu.nextPosition
  repeat' split
  all_goals dsimp only; omega

theorem Ppu.nextPosition_atVblankDot :
    p.nextPosition.atVblankDot = (decide (p.line = 241) && decide (p.dot = 0)) := by
  simp only [Ppu.atVblankDot, ← Bool.decide_and, p.nextPosition_dot_one_iff]

theorem Ppu.nextPosition_atClearDot :
    p.nextPosition.atClearDot = (decide (p.line = 261) && decide (p.dot = 0)) := by
  simp only [Ppu.atClearDot, ← Bool.decide_and, p.nextPosition_dot_one_iff]

end

/-! ### Vblank and the NMI output -/

section
variable (s : State)

/-- Vblank after a dot (60_exceptions.md R326). -/
theorem State.stepDot_vblank :
    s.stepDot.bus.ppu.vblank =
      if s.bus.ppu.nextPosition.atVblankDot then true
      else if s.bus.ppu.nextPosition.atClearDot then false else s.bus.ppu.vblank :=
  congrArg Ppu.vblank (s.bus.ppu.stepDot_eq s.bus.draws)

/-- The NMI output after a dot (60_exceptions.md R326). -/
theorem State.stepDot_nmiOut :
    s.stepDot.bus.ppu.nmiOut =
      if s.bus.ppu.nextPosition.atVblankDot then s.bus.ppu.nmiOut || s.bus.ppu.ctrl.getLsbD 7
      else if s.bus.ppu.nextPosition.atClearDot then false else s.bus.ppu.nmiOut :=
  congrArg Ppu.nmiOut (s.bus.ppu.stepDot_eq s.bus.draws)

/-- A rise of the NMI output since the dot before sets the NMI latch (60_exceptions.md R302). -/
theorem State.stepDot_nmiLatch :
    s.stepDot.nmiLatch = (s.nmiLatch || (!s.bus.ppu.nmiPrev && s.stepDot.bus.ppu.nmiOut)) := by
  have h : (s.bus.ppu.stepDot s.bus.draws).nmiPrev = s.bus.ppu.nmiPrev := by
    rw [Ppu.stepDot_eq, Ppu.nextPosition_keeps]
  rw [← h]
  rfl

end

/-- Settles O27: by the place of the dot, which says what vblank and the output become, and the latch follows the
output. -/
theorem vblankDotsDriveNmi : Obligations.VblankDotsDriveNmi := by
  intro s
  simp only [State.stepDot_nmiLatch, State.stepDot_vblank, State.stepDot_nmiOut, Ppu.nextPosition_atVblankDot,
    Ppu.nextPosition_atClearDot]
  refine ⟨fun hl hd hprev => ?_, fun hl hd => ?_, fun h => ?_⟩
  · simp +contextual [hl, hd, hprev] -- dot 1 of line 241
  · simp [hl, hd] -- dot 1 of line 261
  · have hv : ¬ (s.bus.ppu.line = 241 ∧ s.bus.ppu.dot = 0) := fun hp => h ⟨.inl hp.1, hp.2⟩
    have hc : ¬ (s.bus.ppu.line = 261 ∧ s.bus.ppu.dot = 0) := fun hp => h ⟨.inr hp.1, hp.2⟩
    simp [← Bool.decide_and, hv, hc]

/-! ### The dots of a step -/

/-- Settles O29: on PAL the dots and the budget are the quotient and the remainder of the same fifths of a dot. -/
theorem dotsPerCycleByRegion : Obligations.DotsPerCycleByRegion := by
  refine fun s => ⟨fun hr => ?_, fun hr => ?_⟩
  · simp only [State.advancePpu, dotsOf, hr]
  · refine ⟨(s.dotBudget + 16 * s.stepCycles) / 5, (s.dotBudget + 16 * s.stepCycles) % 5,
      Nat.mod_lt _ (by omega), Nat.div_add_mod .., ?_⟩
    simp only [State.advancePpu, dotsOf, hr]

/-! ### The place in the frame -/

/-- A dot moves the PPU's place in its frame as `nextPosition` says, and leaves PPUMASK. -/
theorem State.stepDot_place (s : State) :
    s.stepDot.bus.ppu.line = s.bus.ppu.nextPosition.line ∧ s.stepDot.bus.ppu.dot = s.bus.ppu.nextPosition.dot ∧
    s.stepDot.bus.ppu.frame = s.bus.ppu.nextPosition.frame ∧ s.stepDot.bus.ppu.mask = s.bus.ppu.mask := by
  have h := s.bus.ppu.stepDot_eq s.bus.draws
  have hm := congrArg Ppu.mask s.bus.ppu.nextPosition_keeps
  exact ⟨(congrArg Ppu.line h :), (congrArg Ppu.dot h :), (congrArg Ppu.frame h :),
    (congrArg Ppu.mask h).trans hm⟩

/-- With background rendering off no dot is removed: a dot moves the position by 1 in a frame of 262 lines of 341
dots, and the frame is counted when it comes round (60_exceptions.md R326). -/
theorem Ppu.nextPosition_of_background_off {p : Ppu} (hl : p.line < 262) (hd : p.dot < 341)
    (hm : p.mask.getLsbD 3 = false) :
    p.nextPosition.position = (p.position + 1) % 89342 ∧
    p.nextPosition.frame = p.frame + (p.position + 1) / 89342 ∧
    p.nextPosition.line < 262 ∧ p.nextPosition.dot < 341 := by
  simp only [Ppu.nextPosition, hm, Bool.false_eq_true, and_false, if_false, Ppu.position]
  repeat' split
  all_goals dsimp only; omega

/-- With background rendering off, `n` dots move the position by `n` and count the frames completed. -/
theorem State.runDots_of_background_off (n : Nat) {s : State} (hl : s.bus.ppu.line < 262)
    (hd : s.bus.ppu.dot < 341) (hm : s.bus.ppu.mask.getLsbD 3 = false) :
    (State.runDots n s).bus.ppu.position = (s.bus.ppu.position + n) % 89342 ∧
    (State.runDots n s).bus.ppu.frame = s.bus.ppu.frame + (s.bus.ppu.position + n) / 89342 := by
  induction n generalizing s with
  | zero => simp only [State.runDots, Ppu.position]; omega
  | succ n ih =>
    obtain ⟨hline, hdot, hframe, hmask⟩ := s.stepDot_place
    obtain ⟨hposition', hframe', hline', hdot'⟩ := Ppu.nextPosition_of_background_off hl hd hm
    obtain ⟨hp, hf⟩ := ih (hline ▸ hline') (hdot ▸ hdot') (hmask ▸ hm)
    rw [State.runDots, hp, hf, hframe, hframe', Ppu.position, hline, hdot, ← Ppu.position, hposition']
    omega

/-- Dots that stay on line 0 end on it and complete no frame. -/
theorem State.runDots_on_line_zero (n : Nat) {s : State} (hl : s.bus.ppu.line = 0) (hd : s.bus.ppu.dot + n < 341) :
    (State.runDots n s).bus.ppu.line = 0 ∧ (State.runDots n s).bus.ppu.frame = s.bus.ppu.frame := by
  induction n generalizing s with
  | zero => exact ⟨hl, rfl⟩
  | succ n ih =>
    have hnext : s.bus.ppu.nextPosition = { s.bus.ppu with dot := s.bus.ppu.dot + 1 } := by
      simp only [Ppu.nextPosition, hl]
      rw [if_neg (by omega), if_neg (by omega)]
    obtain ⟨hline, hdot, hframe, -⟩ := s.stepDot_place
    rw [hnext] at hline hdot hframe
    obtain ⟨hline', hframe'⟩ := ih (hline.trans hl) (by rw [hdot]; dsimp only; omega)
    exact ⟨hline', hframe'.trans hframe⟩

/-! ### A step that runs the reset sequence -/

/-- What an instruction that answers a next state was: its meaning, and what follows it. -/
theorem runInstruction_next {u t : State} (h : runInstruction u = .next t) :
    ∃ v, exec u.fetchInstr.1 u.fetchInstr.2 = .next v ∧ t = v.finishStep := by
  unfold runInstruction at h
  split at h <;> cases h
  exact ⟨_, ‹_›, rfl⟩

/-- The reset sequence puts the PPU to dot 0 of line 0 with no frame counted (logs 9, 16, 25). -/
theorem State.resetSequence_place (s : State) :
    s.resetSequence.bus.ppu.line = 0 ∧ s.resetSequence.bus.ppu.dot = 0 ∧ s.resetSequence.bus.ppu.frame = 0 := by
  have h : s.bus.consoleReset.Steady s.resetSequence.bus := (Bus.Steady.read ..).trans (.read ..)
  exact ⟨h.line, h.dot, h.frame⟩

/-- No instruction touches the PAL budget (60_exceptions.md R331). -/
theorem exec_dotBudget {i : Instr} {s t : State} (h : exec i s = .next t) : t.dotBudget = s.dotBudget := by
  obtain ⟨m, n, pc, b, -, rfl⟩ := exec_next h
  obtain ⟨-, -, -, hbudget, -⟩ := effectOf_keeps i.mnemonic i.operand m s
  exact hbudget

/-- The dots of fewer than 16 cycles from dot 0 of line 0 end on that line and complete no frame. -/
theorem State.advancePpu_on_line_zero {s : State} (hl : s.bus.ppu.line = 0) (hd : s.bus.ppu.dot = 0)
    (hb : s.dotBudget < 5) (hc : s.stepCycles < 16) :
    s.advancePpu.bus.ppu.line = 0 ∧ s.advancePpu.bus.ppu.frame = s.bus.ppu.frame := by
  refine State.runDots_on_line_zero _ hl ?_
  rw [hd]
  cases s.launch.region <;> simp only [dotsOf] <;> omega

/-- What follows an instruction that ends on dot 0 of line 0 within 16 cycles ends on that line too and completes no
frame. -/
theorem State.finishStep_on_line_zero {s : State} (hl : s.bus.ppu.line = 0) (hd : s.bus.ppu.dot = 0)
    (hb : s.dotBudget < 5) (hc : s.stepCycles < 16) :
    s.finishStep.bus.ppu.line = 0 ∧ s.finishStep.bus.ppu.frame = s.bus.ppu.frame := by
  unfold State.finishStep
  split
  · exact ⟨hl, rfl⟩
  · have hdma := s.oamDma_steady
    have hbudget : s.oamDma.dotBudget = s.dotBudget := by rw [s.oamDma_keeps.1]
    have hcycles : s.oamDma.stepCycles = s.stepCycles := by rw [s.oamDma_keeps.1]
    obtain ⟨hline, hframe⟩ := State.advancePpu_on_line_zero (hdma.line.trans hl) (hdma.dot.trans hd)
      (hbudget ▸ hb) (hcycles ▸ hc)
    exact ⟨hline, hframe.trans hdma.frame⟩

/-- A step that runs the reset sequence ends on line 0 with no frame counted: its 15 cycles at most have fewer dots
than a line. -/
theorem step_place_of_reset {s t : State} (h : step s = .next t) (hb : s.dotBudget < 5)
    (hr : s.beginStep.resetPending = true) : t.bus.ppu.line = 0 ∧ t.bus.ppu.frame = 0 := by
  obtain ⟨hm, hq, -⟩ := step_next h
  rw [step_of_unmarked hm hq, turn_of_reset hr] at h
  obtain ⟨v, hx, rfl⟩ := runInstruction_next h
  obtain ⟨hline, hdot, hframe⟩ := s.beginStep.resetSequence_place
  have hfetch := s.beginStep.resetSequence.fetchInstr_steady
  obtain ⟨hexec, hcycles⟩ := exec_steady hx
  have hsteady := hfetch.trans hexec
  have hkeeps := s.beginStep.resetSequence.fetchInstr_keeps.1
  have hcount : s.beginStep.resetSequence.fetchInstr.2.stepCycles = 7 := by rw [hkeeps]; rfl
  have hbudget : v.dotBudget = s.dotBudget := by
    rw [exec_dotBudget hx, hkeeps]
    change s.beginStep.dotBudget = s.dotBudget
    rw [s.beginStep_keeps.1]
  obtain ⟨hline', hframe'⟩ := State.finishStep_on_line_zero (hsteady.line.trans hline) (hsteady.dot.trans hdot)
    (hbudget ▸ hb) (by omega)
  exact ⟨hline', hframe'.trans (hsteady.frame.trans hframe)⟩

/-! ### A frame of the synchronizer -/

/-- A step of `stepFrame` ends it exactly if the step has completed a frame (60_exceptions.md R330). -/
theorem stepFrame_succ {s t : State} (n : Nat) (h : step s = .next t) :
    stepFrame (n + 1) s =
      if t.bus.ppu.frame = s.bus.ppu.frame + 1 then some (.next t) else stepFrame n t := by
  simp only [stepFrame, h, frameDone, beq_iff_eq]

/-- Settles O28: dots are counted one by one; the removed dot is the one `nextPosition` leaves out; and after a
reset no frame is counted, so that none has been completed. -/
theorem dotsFollowFrameGeometry : Obligations.DotsFollowFrameGeometry := by
  refine ⟨fun n s => State.runDots_of_background_off n, fun s hl hd hf hm => ?_, fun n s t h =>
    ⟨stepFrame_succ n h, fun hb hr => ?_⟩⟩
  · have hnext : s.bus.ppu.nextPosition = { s.bus.ppu with dot := 340 } := by
      simp [Ppu.nextPosition, hl, hd, hf, hm]
    obtain ⟨hline, hdot, hframe, -⟩ := s.stepDot_place
    rw [hnext] at hline hdot hframe
    exact ⟨hline.trans hl, hdot, hframe⟩
  · obtain ⟨hline, hframe⟩ := step_place_of_reset h hb hr
    exact ⟨hframe, hline, (stepFrame_succ n h).trans (if_neg (by omega))⟩

end Sys2Proof.Machine
end

section
/-! The PPU's ports (60_exceptions.md R320 to R326): what a read and a write of each does to the PPU. -/
namespace Sys2Proof.Machine

/-! ### PPUSTATUS -/

/-- A PPUSTATUS read returns the status byte and clears vblank and the write latch; what it does to the NMI
output is free (60_exceptions.md R324; log 11). -/
theorem Bus.read_2002 (b : Bus) :
    b.read 0x2002 = (b.ppu.statusByte,
      { b with
        ppu := { b.ppu with vblank := false, w := false, nmiOut := b.ppu.nmiOut && Config.nmiOutput b.draws,
                            latch := b.ppu.statusByte }
        draws := b.draws + 1 }) :=
  rfl

/-- The bits of PPUSTATUS: the three flags over the low bits of the data-bus latch (60_exceptions.md R324). -/
theorem Ppu.statusByte_getLsbD (p : Ppu) (k : Nat) :
    p.statusByte.getLsbD k = if k < 5 then p.latch.getLsbD k else
      [p.spriteOverflow, p.sprite0Hit, p.vblank && !p.atVblankDot].getD (k - 5) false := by
  have h : p.statusByte.getLsbD k = _ := BitVec.getLsbD_append
  rw [h, BitVec.getLsbD_append, BitVec.getLsbD_append]
  split
  · simp [*]
  · generalize k - 5 = j
    match j with
    | 0 | 1 | 2 => simp
    | j + 3 => simp

/-- Settles O21: the read is one equation, and the status byte holds its flags bit by bit. -/
theorem statusReadClearsVblankAndLatch : Obligations.StatusReadClearsVblankAndLatch := by
  intro b
  rw [Bus.read_2002]
  have hbit := b.ppu.statusByte_getLsbD
  refine ⟨?_, hbit 6, hbit 5, fun k hk => (hbit k).trans (if_pos hk), rfl, rfl, rfl, rfl, rfl, rfl⟩
  dsimp only
  rw [hbit 7]
  simp [Ppu.atVblankDot, imp_iff_not_or]

/-! ### The scroll and address latches -/

/-- The field of a field is a field. -/
theorem extractLsb'_of_extractLsb' {w : Nat} (x : BitVec w) (start start' : Nat) {len len' : Nat}
    (h : start' + len' ≤ len) :
    (x.extractLsb' start len).extractLsb' start' len' = x.extractLsb' (start + start') len' := by
  ext i hi
  simp only [BitVec.getElem_extractLsb', BitVec.getLsbD_extractLsb', Nat.add_assoc,
    show start' + i < len by omega, decide_true, Bool.true_and]

/-- The fields of `t` (log 9), each read back from where it was put. -/
theorem extractLsb'_scrollFields (fineY : BitVec 3) (nametable : BitVec 2) (coarseY coarseX : BitVec 5) :
    let t : BitVec 15 := fineY ++ nametable ++ coarseY ++ coarseX
    t.extractLsb' 0 5 = coarseX ∧ t.extractLsb' 5 5 = coarseY ∧ t.extractLsb' 10 2 = nametable ∧
    t.extractLsb' 12 3 = fineY := by
  refine ⟨BitVec.extractLsb'_append_eq_right, ?_, ?_, ?_⟩
  all_goals refine (BitVec.extractLsb'_append_eq_of_le (by decide)).trans ?_ -- past coarse X
  · exact BitVec.extractLsb'_append_eq_right
  all_goals refine (BitVec.extractLsb'_append_eq_of_le (by decide)).trans ?_ -- past coarse Y
  · exact BitVec.extractLsb'_append_eq_right
  · exact BitVec.extractLsb'_append_eq_left

section
variable (b : Bus) (v : Byte)

/-- A PPUSCROLL write is one draw, and fills the data-bus latch (20_memory.md R64). -/
theorem Bus.write_2005 :
    b.write 0x2005 v = { b with ppu := { b.ppu.writeScroll v with latch := v }, draws := b.draws + 1 } := rfl

/-- A PPUADDR write is one draw, and fills the data-bus latch (20_memory.md R64). -/
theorem Bus.write_2006 :
    b.write 0x2006 v = { b with ppu := { b.ppu.writeAddr v with latch := v }, draws := b.draws + 1 } := rfl

end

section
variable {p : Ppu} (v : Byte)

/-- The first PPUSCROLL write: coarse and fine X (60_exceptions.md R321, R325). -/
theorem Ppu.writeScroll_first (h : p.w = false) :
    let q := p.writeScroll v
    q.t.extractLsb' 0 5 = v.extractLsb' 3 5 ∧ q.t.extractLsb' 10 2 = p.t.extractLsb' 10 2 ∧
    q.fineX = v.extractLsb' 0 3 ∧ q.v = p.v ∧ q.w = true := by
  have e : p.writeScroll v = _ := if_neg (ne_true_of_eq_false h)
  rw [e]
  refine ⟨BitVec.extractLsb'_append_eq_right, ?_, rfl, rfl, rfl⟩
  refine (BitVec.extractLsb'_append_eq_of_le (by decide)).trans ?_ -- past coarse X
  exact extractLsb'_of_extractLsb' _ _ _ (by decide)

/-- The second PPUSCROLL write: coarse and fine Y (60_exceptions.md R321, R325). -/
theorem Ppu.writeScroll_second (h : p.w = true) :
    let q := p.writeScroll v
    q.t.extractLsb' 0 5 = p.t.extractLsb' 0 5 ∧ q.t.extractLsb' 5 5 = v.extractLsb' 3 5 ∧
    q.t.extractLsb' 10 2 = p.t.extractLsb' 10 2 ∧ q.t.extractLsb' 12 3 = v.extractLsb' 0 3 ∧
    q.v = p.v ∧ q.w = false := by
  have e : p.writeScroll v = _ := if_pos h
  rw [e]
  obtain ⟨hx, hy, hn, hfine⟩ := extractLsb'_scrollFields (v.extractLsb' 0 3) (p.t.extractLsb' 10 2)
    (v.extractLsb' 3 5) (p.t.extractLsb' 0 5)
  exact ⟨hx, hy, hn, hfine, rfl, rfl⟩

/-- The first PPUADDR write: the high byte, of which 6 bits count (60_exceptions.md R321, R325; log 9). -/
theorem Ppu.writeAddr_first (h : p.w = false) :
    let q := p.writeAddr v
    q.t.extractLsb' 8 6 = v.extractLsb' 0 6 ∧ q.w = true := by
  have e : p.writeAddr v = _ := if_neg (ne_true_of_eq_false h)
  rw [e]
  refine ⟨?_, rfl⟩
  refine (BitVec.extractLsb'_append_eq_of_le (by decide)).trans ?_ -- past the low byte
  exact BitVec.extractLsb'_append_eq_right

/-- The second PPUADDR write: the low byte, and `t` goes to `v` (60_exceptions.md R321, R325). -/
theorem Ppu.writeAddr_second (h : p.w = true) :
    let q := p.writeAddr v
    q.v = q.t ∧ q.t.extractLsb' 0 8 = v ∧ q.t.extractLsb' 8 6 = p.t.extractLsb' 8 6 ∧ q.w = false := by
  have e : p.writeAddr v = _ := if_pos h
  rw [e]
  refine ⟨rfl, BitVec.extractLsb'_append_eq_right, ?_, rfl⟩
  refine (BitVec.extractLsb'_append_eq_of_le (by decide)).trans ?_ -- past the low byte
  exact extractLsb'_of_extractLsb' _ _ _ (by decide)

end

/-- Settles O22: the first write of each port sets `w`, with which the second is what it is. -/
theorem scrollAndAddressWritesFillLatches : Obligations.ScrollAndAddressWritesFillLatches := by
  intro b v1 v2 hw
  obtain ⟨hx, hn, hfineX, hv, hw1⟩ := Ppu.writeScroll_first v1 hw
  obtain ⟨hx', hy, hn', hfineY, hv', hw2⟩ :=
    Ppu.writeScroll_second (p := { b.ppu.writeScroll v1 with latch := v1 }) v2 hw1
  obtain ⟨hhigh, haddr1⟩ := Ppu.writeAddr_first v1 hw
  obtain ⟨hcopy, hlow, hhigh', haddr2⟩ :=
    Ppu.writeAddr_second (p := { b.ppu.writeAddr v1 with latch := v1 }) v2 haddr1
  simp only [Bus.write_2005, Bus.write_2006]
  exact ⟨⟨hx, hfineX, hv, hw1⟩, ⟨hx'.trans hx, hy, hfineY, hn'.trans hn, hv'.trans hv, hw2⟩,
    hcopy, hlow, hhigh'.trans hhigh, haddr2⟩

/-! ### PPUCTRL, OAMDATA and PPUDATA -/

section
variable (p : Ppu) (v : Byte) (k : Nat)

/-- A PPUCTRL write puts its low bits into bits 10 and 11 of `t` and leaves the rest of it
(60_exceptions.md R322). -/
theorem Ppu.writeCtrl_t :
    let q := p.writeCtrl v k
    q.t.extractLsb' 10 2 = v.extractLsb' 0 2 ∧ q.t.extractLsb' 0 10 = p.t.extractLsb' 0 10 ∧
    q.t.extractLsb' 12 3 = p.t.extractLsb' 12 3 := by
  refine ⟨?_, BitVec.extractLsb'_append_eq_right, ?_⟩
  all_goals refine (BitVec.extractLsb'_append_eq_of_le (by decide)).trans ?_ -- past bits 0 to 9
  · exact BitVec.extractLsb'_append_eq_right
  · exact BitVec.extractLsb'_append_eq_left

/-- A PPUCTRL write leaves the NMI output when bit 7 stays, or outside vblank with the output low (log 11). -/
theorem Ppu.writeCtrl_nmiOut (h : v.getLsbD 7 = p.ctrl.getLsbD 7 ∨ (p.vblank = false ∧ p.nmiOut = false)) :
    (p.writeCtrl v k).nmiOut = p.nmiOut := by
  refine if_neg ?_
  rcases h with h | ⟨hv, hn⟩
  · rw [h, bne_self_eq_false]
    simp
  · simp [hv, hn]

variable {p}

/-- The byte at OAMADDR, where one is listed (60_exceptions.md R325). -/
theorem Ppu.oamByte_of_lookup (h : p.oam.lookup p.oamAddr.toNat = some v) : p.oamByte = v := by
  rw [Ppu.oamByte, h, Option.getD_some]

/-- Below the palette a PPUDATA read returns the read buffer (60_exceptions.md R321). -/
theorem Ppu.dataByte_below_palette (h : (p.v.setWidth 14).toNat < 0x3F00) : p.dataByte k = p.readBuffer :=
  if_neg (by simpa [Ppu.atPalette] using h)

/-- Where the PPU does not render, a PPUDATA access moves `v` by PPUCTRL's step (60_exceptions.md R321, R322). -/
theorem Ppu.nextV_of_not_rendering (h : p.rendering = false ∨ (240 ≤ p.line ∧ p.line ≤ 260)) :
    p.nextV k = p.v + if p.ctrl.getLsbD 2 then 32 else 1 := by
  refine if_neg ?_
  rcases h with h | h
  · simp [h]
  · have hline : ¬ (p.line < 240 ∨ p.line = 261) := by omega
    simp [Ppu.onRenderLine, ← Bool.decide_or, hline]

end

/-- An OAMDATA read returns the byte at OAMADDR and leaves OAMADDR (log 14). -/
theorem Bus.read_2004 (b : Bus) :
    b.read 0x2004 =
      (b.ppu.oamByte, { b with ppu := { b.ppu with latch := b.ppu.oamByte }, draws := b.draws + 1 }) :=
  rfl

/-- A PPUDATA read refills the read buffer and moves `v` (60_exceptions.md R321, R325). -/
theorem Bus.read_2007 (b : Bus) :
    b.read 0x2007 = (b.ppu.dataByte b.draws,
      { b with
        ppu := { b.ppu with readBuffer := Config.ppuBusByte (2 * b.draws + 1), v := b.ppu.nextV b.draws,
                            latch := b.ppu.dataByte b.draws }
        draws := b.draws + 1 }) :=
  rfl

/-- A PPUDATA write moves `v` (60_exceptions.md R321, R325). -/
theorem Bus.write_2007 (b : Bus) (v : Byte) :
    b.write 0x2007 v =
      { b with ppu := { b.ppu with v := b.ppu.nextV b.draws, latch := v }, draws := b.draws + 1 } :=
  rfl

/-- Settles O24: port by port, each by what its access does to the PPU. -/
theorem ppuPortsActOnTheirRegisters : Obligations.PpuPortsActOnTheirRegisters := by
  intro b v
  dsimp only
  refine ⟨?_, rfl, rfl, rfl, fun h => ?_, fun hr hl => ?_, fun h => ?_, fun h => ?_, fun h => ?_⟩
  · obtain ⟨hnametable, hlow, hhigh⟩ := b.ppu.writeCtrl_t v b.draws
    exact ⟨rfl, hnametable, hlow, hhigh, rfl, rfl, rfl, rfl, b.ppu.writeCtrl_nmiOut v b.draws⟩
  · rw [Bus.write_oamData_of_writable v (b.ppu.oamWritable_iff.mpr h)]
  · have hw : b.ppu.oamWritable = false := by
      rw [← Bool.not_eq_true, Ppu.oamWritable_iff, hr]
      simpa using hl
    rw [Bus.write_oamData_of_dropped v hw]
  · rw [Bus.read_2004, Ppu.oamByte_of_lookup v h]
    exact ⟨rfl, rfl⟩
  · rw [Bus.read_2007]
    exact Ppu.dataByte_below_palette _ h
  · rw [Bus.read_2007, Bus.write_2007, Ppu.nextV_of_not_rendering _ h]
    exact ⟨rfl, rfl⟩

end Sys2Proof.Machine
end

section
/-! The controllers (60_exceptions.md R328): what a strobe latches, and the bits that reads shift out. -/
namespace Sys2Proof.Machine

/-! ### The shift register -/

/-- What the read after `n` reads returns, from a shift register that held `shift`. -/
def shiftedOut (shift : Byte) (n : Nat) : Byte :=
  if n < 8 then if shift.getLsbD n then 0x41 else 0x40 else 0x41

theorem padByte_eq_shiftedOut (shift : Byte) (k : Nat) : padByte false shift k = shiftedOut shift 0 := by
  change 0x40 ||| (shift &&& 1) = _
  revert shift; decide

/-- A read moves every bit down by one, and a 1 enters at the top. -/
theorem padShift_getLsbD (shift : Byte) {n : Nat} (hn : n < 8) :
    (padShift false shift).getLsbD n = (shift.getLsbD (n + 1) || decide (n = 7)) := by
  have htop : ∀ n < 8, (0x80 : Byte).getLsbD n = decide (n = 7) := by decide
  change (shift >>> 1 ||| 0x80).getLsbD n = _
  rw [BitVec.getLsbD_or, BitVec.getLsbD_ushiftRight, htop n hn, Nat.add_comm]

/-- The read after a read is the next one of the row. -/
theorem shiftedOut_padShift (shift : Byte) (n : Nat) :
    shiftedOut (padShift false shift) n = shiftedOut shift (n + 1) := by
  obtain hn | rfl | hn : n < 7 ∨ n = 7 ∨ 8 ≤ n := by omega
  · simp only [shiftedOut, padShift_getLsbD shift (show n < 8 by omega), show n < 8 by omega,
      show n + 1 < 8 by omega, hn.ne, decide_false, Bool.or_false, if_true]
  · simp [shiftedOut, padShift_getLsbD shift (show 7 < 8 by omega)]
  · simp only [shiftedOut, show ¬ n < 8 by omega, show ¬ n + 1 < 8 by omega, if_false]

/-! ### Strobe and reads -/

/-- A $4016 write of a byte with bit 0 set raises the strobe and latches nothing. -/
theorem Pads.writeStrobe_one (c : Pads) {v : Byte} (h : v.getLsbD 0 = true) :
    c.writeStrobe v = { c with strobe := true } := by
  rw [Pads.writeStrobe, h, Bool.not_true, Bool.and_false, if_neg Bool.false_ne_true]

/-- A $4016 write of a byte with bit 0 clear, with the strobe at 1, lowers it and latches the buttons. -/
theorem Pads.writeStrobe_zero {c : Pads} {v : Byte} (hc : c.strobe = true) (h : v.getLsbD 0 = false) :
    c.writeStrobe v = { c with strobe := false, shift1 := c.buttons1, shift2 := c.buttons2 } := by
  rw [Pads.writeStrobe, hc, h, Bool.not_false, Bool.and_self, if_pos rfl]

/-- A strobe latches the buttons of both controllers and ends with the strobe at 0. -/
theorem Bus.write_strobe (b : Bus) {one zero : Byte} (h1 : one.getLsbD 0 = true) (h0 : zero.getLsbD 0 = false) :
    ((b.write 0x4016 one).write 0x4016 zero).pads =
      { b.pads with strobe := false, shift1 := b.pads.buttons1, shift2 := b.pads.buttons2 } := by
  change (b.pads.writeStrobe one).writeStrobe zero = _
  rw [Pads.writeStrobe_one _ h1, Pads.writeStrobe_zero rfl h0]

/-- With the strobe at 0, the reads of a controller's port shift out its register. -/
theorem Bus.readTimes_shiftedOut {w : Word} {shift : Pads → Byte}
    (hread : ∀ b : Bus, (b.read w).1 = padByte b.pads.strobe (shift b.pads) b.draws ∧
      shift (b.read w).2.pads = padShift b.pads.strobe (shift b.pads) ∧
      (b.read w).2.pads.strobe = b.pads.strobe)
    (n : Nat) {b : Bus} (h : b.pads.strobe = false) :
    ((Bus.readTimes w n b).read w).1 = shiftedOut (shift b.pads) n := by
  induction n generalizing b with
  | zero => rw [Bus.readTimes, (hread b).1, h, padByte_eq_shiftedOut]
  | succ n ih =>
    obtain ⟨-, hshift, hstrobe⟩ := hread b
    rw [Bus.readTimes, ih (hstrobe.trans h), hshift, h, shiftedOut_padShift]

/-- Settles O26: the strobe latches the buttons, and the reads of either port shift them out. -/
theorem controllerReadsShiftOutButtons : Obligations.ControllerReadsShiftOutButtons := by
  intro b one zero n h1 h0
  have hpads := b.write_strobe h1 h0
  have hstrobe := congrArg Pads.strobe hpads
  have port1 := Bus.readTimes_shiftedOut (w := 0x4016) (shift := Pads.shift1)
    (fun _ => ⟨rfl, rfl, rfl⟩) n hstrobe
  have port2 := Bus.readTimes_shiftedOut (w := 0x4017) (shift := Pads.shift2)
    (fun _ => ⟨rfl, rfl, rfl⟩) n hstrobe
  rw [hpads] at port1 port2
  exact ⟨port1, port2⟩

end Sys2Proof.Machine
end

section
/-! Reset and the end of a run: the launch state (70_reset_and_hazards.md R352), the user reset and the reset sequence
(R350, R351; 10_state.md R40), and the final states of a run (70_reset_and_hazards.md R363). -/
namespace Sys2Proof.Machine

/-! ### The launch state and the user reset -/

/-- Settles O5: nothing is listed at launch, and the PPU is at dot 0 of line 0. -/
theorem launchStateMeetsInvariant : Obligations.LaunchStateMeetsInvariant where
  bus :=
    { memCanonical := reset_memory_wf.1
      memKeys := nofun
      oamCanonical := reset_memory_wf.2
      oamKeys := nofun
      line := by decide
      dot := by decide }
  unused := rfl
  budget := by decide
  stall := by decide

/-- User resets that arrive together leave one reset pending and change nothing else (70_reset_and_hazards.md R351). -/
theorem HostEvent.foldl_apply_userResets (n : Nat) (s : State) :
    (List.replicate (n + 1) HostEvent.userReset).foldl (fun t e => e.apply t) s =
      { s with resetPending := true } := by
  induction n generalizing s with
  | zero => rfl
  | succ n ih => rw [List.replicate_succ, List.foldl_cons, ih]; rfl

/-- Settles O9: the boundary leaves a reset pending, which comes before a jam and a stall. -/
theorem userResetRunsResetSequence : Obligations.UserResetRunsResetSequence := by
  intro s n rest hm hi
  have hq : s.quits = false := by simp [State.quits, State.arriving, hi]
  have hb : s.beginStep = { s with inputs := rest, resetPending := true, stepCycles := 0,
                                   bus := { s.bus with dmaPage := none } } := by
    simp only [State.beginStep, State.arriving, hi, List.headD_cons, List.tail_cons,
      HostEvent.foldl_apply_userResets]
  rw [step_of_unmarked hm hq, hb, turn_of_reset rfl]

/-! ### The reset sequence -/

/-- After the devices' reset, the reset sequence only reads its vector, which changes no plain memory
(70_reset_and_hazards.md R350; log 25). -/
theorem State.resetSequence_peek (s : State) (a : Word) : s.resetSequence.peek a = s.bus.consoleReset.peek a :=
  (Bus.read_peek ..).trans (Bus.read_peek ..)

/-- No interrupt source is asserted after the reset sequence (10_state.md R37; log 25). -/
theorem State.resetSequence_irqLine (s : State) : s.resetSequence.irqLine = false := by
  have hbus : s.resetSequence.bus = ((s.bus.consoleReset.read resetVector).2.read (resetVector + 1)).2 := rfl
  have hlo : 0x4020 ≤ resetVector.toNat := by decide
  have hhi : 0x4020 ≤ (resetVector + 1).toNat := by decide
  have hmapper := s.bus.consoleReset_keeps.2.2
  rw [State.irqLine, hbus, Bus.read_apu_of_cart _ hhi, Bus.read_apu_of_cart _ hlo, Bus.read_mapperIrq,
    Bus.read_mapperIrq, hmapper]
  rfl

/-- A console reset that the supplied cartridge does not answer leaves plain memory. -/
theorem Bus.consoleReset_peek_of_unanswered {b : Bus} (h : b.cart.onReset = none) (a : Word) :
    b.consoleReset.peek a = b.peek a := by
  have hmem := b.consoleReset_keeps.1
  rw [h] at hmem
  exact Bus.peek_congr hmem a

/-- Settles O10: the registers are those of the sequence, and memory is the one the devices' reset leaves. -/
theorem resetSequenceSetsRegisters : Obligations.ResetSequenceSetsRegisters := fun s =>
  ⟨rfl, rfl, rfl, rfl, (by decide : Status.reset.toByte = 0x24), rfl, rfl, rfl, rfl, rfl, rfl,
    s.resetSequence_irqLine, rfl, s.resetSequence_mark, s.resetSequence_launch, s.resetSequence_cart,
    fun a ha => (s.resetSequence_peek a).trans (s.bus.consoleReset_peek ha),
    s.resetSequence_peek,
    fun h a => (s.resetSequence_peek a).trans (Bus.consoleReset_peek_of_unanswered h a)⟩

/-! ### Quiet boundaries -/

@[simp] theorem State.beginStep_nmiLatch (s : State) : s.beginStep.nmiLatch = s.nmiLatch := by
  rw [s.beginStep_keeps.1]

@[simp] theorem State.beginStep_mark (s : State) : s.beginStep.mark = s.mark := by rw [s.beginStep_keeps.1]

section
variable {s : State}

/-- A state is quiet exactly if nothing keeps its core from running the instruction at PC. -/
theorem State.quiet_iff :
    s.quiet = true ↔ s.resetPending = false ∧ s.stall = 0 ∧ s.jammed = false ∧ s.mark = none ∧
      s.nmiLatch = false ∧ (s.irqLine = false ∨ s.p.i = true) := by
  simp only [State.quiet, Bool.and_eq_true, Bool.not_eq_true', Bool.and_eq_false_iff, Bool.not_eq_false',
    decide_eq_true_eq, and_assoc]

/-- The boundary at which a run ends by R363 (a), in full (log 31). -/
theorem State.isFinal_iff :
    s.isFinal = true ↔ s.launch.stopPc = some s.pc ∧ s.beginStep.resetPending = false ∧ s.stall = 0 ∧
      s.jammed = false ∧ s.mark = none ∧ s.nmiLatch = false ∧
      (s.beginStep.irqLine = false ∨ s.p.i = true) ∧ s.quits = false := by
  simp only [State.isFinal, Bool.and_eq_true, Bool.not_eq_true', decide_eq_true_eq, State.quiet_iff,
    State.beginStep_stall, State.beginStep_jammed, State.beginStep_mark, State.beginStep_nmiLatch,
    State.beginStep_p, and_assoc]

/-- The step of a quiet boundary runs the instruction at PC. -/
theorem step_of_quiet (h : s.beginStep.quiet = true) (hq : s.quits = false) :
    step s = runInstruction s.beginStep := by
  obtain ⟨hr, hs, hj, hm, hn, hi⟩ := State.quiet_iff.mp h
  rw [step_of_unmarked (s.beginStep_mark ▸ hm) hq, turn_of_running hr hj hs,
    State.serviceInterrupt_of_none hn hi]

/-- Nothing comes before the instruction of a quiet boundary. -/
theorem State.beforeInstr_of_quiet (h : s.beginStep.quiet = true) : s.beforeInstr = s.beginStep := by
  obtain ⟨hr, -, -, -, hn, hi⟩ := State.quiet_iff.mp h
  rw [State.beforeInstr, hr, if_neg Bool.false_ne_true, State.serviceInterrupt_of_none hn hi]

/-- Under `debugBreak` a BRK stops with no state change (45_control_transfer.md R245). -/
theorem runInstruction_of_brk (hd : s.launch.debugBreak = true) (hop : s.peek s.pc = some 0x00) :
    runInstruction s = .fault (.breakEncountered s.pc) := by
  have hfetch : s.fetchInstr = (.brk, s) := State.fetchInstr_of_decode (bs := [0x00]) rfl fun
    | 0, _ => (congrArg s.peek (BitVec.add_zero _)).trans hop
  have hexec : exec .brk s = .fault (.breakEncountered s.pc) := (exec_by_mnemonic .brk s).trans (if_pos hd)
  simp only [runInstruction, hfetch, hexec]

/-! ### Final states -/

/-- A quit ends the run of an unmarked state (60_exceptions.md R333; log 28). -/
theorem step_of_quits (hm : s.mark = none) (hq : s.quits = true) : step s = .fault .quit := by
  simp only [step, machineStep, hm, hq, if_true]

/-- A marked, quit or jammed state reaches no BRK (40_execution_cycle.md R122, R123; 60_exceptions.md R333). -/
theorem step_ne_breakEncountered
    (h : s.mark ≠ none ∨ s.quits = true ∨ (s.jammed = true ∧ s.beginStep.resetPending = false)) (p : Word) :
    step s ≠ .fault (.breakEncountered p) := by
  cases hm : s.mark with
  | some m => rw [step_of_mark hm]; cases m <;> nofun
  | none =>
    cases hq : s.quits with
    | true => rw [step_of_quits hm hq]; nofun
    | false =>
      obtain ⟨hj, hr⟩ : s.jammed = true ∧ s.beginStep.resetPending = false := by simpa [hm, hq] using h
      rw [step_of_unmarked hm hq, turn_of_jammed hr (s.beginStep_jammed.trans hj)]
      nofun

theorem State.finalState_of_isFinal (h : s.isFinal = true) : s.finalState = some s.beginStep := if_pos h

/-- A BRK that stops the step of a quiet boundary leaves the state at the boundary as the final one. -/
theorem State.finalState_of_break {p : Word} (hquiet : s.beginStep.quiet = true)
    (h : step s = .fault (.breakEncountered p)) : s.finalState = some s.beginStep := by
  simp only [State.finalState, h, State.beforeInstr_of_quiet hquiet, ite_self]

/-- A state that is not final and whose step reaches no BRK ends no run in a final state. -/
theorem State.finalState_eq_none (hf : s.isFinal ≠ true) (h : ∀ p, step s ≠ .fault (.breakEncountered p)) :
    s.finalState = none := by
  rw [State.finalState, if_neg hf]
  split
  · exact absurd ‹_› (h _)
  all_goals rfl

theorem runToEnd_of_final {f : State} (n : Nat) (h : s.finalState = some f) : runToEnd (n + 1) s = some f := by
  simp only [runToEnd, h]

theorem runToEnd_of_next {t : State} (n : Nat) (hf : s.finalState = none) (h : step s = .next t) :
    runToEnd (n + 1) s = runToEnd n t := by
  simp only [runToEnd, hf, h]

end

/-- Settles O16: a boundary at `stop_pc` or a BRK is final where the boundary is quiet; what ends a run otherwise
keeps the boundary from being final and the step from reaching a BRK. -/
theorem finalStatesEndRuns : Obligations.FinalStatesEndRuns := by
  intro s
  refine ⟨State.isFinal_iff, State.finalState_of_isFinal, fun hd hm hq hr hj hs hn hi hop => ?_, fun h => ?_,
    fun n t => ⟨fun f => runToEnd_of_final n, runToEnd_of_next n⟩⟩
  · have hquiet : s.beginStep.quiet = true := State.quiet_iff.mpr
      ⟨hr, s.beginStep_stall.trans hs, s.beginStep_jammed.trans hj, s.beginStep_mark.trans hm,
        s.beginStep_nmiLatch.trans hn, s.beginStep_p ▸ hi⟩
    have hpeek : s.beginStep.peek s.pc = some 0x00 := (Bus.peek_congr s.beginStep_mem s.pc).trans hop
    have hstep : step s = .fault (.breakEncountered s.pc) := by
      rw [step_of_quiet hquiet hq, runInstruction_of_brk (by simpa using hd) (by simpa using hpeek),
        s.beginStep_pc]
    exact ⟨hstep, State.finalState_of_break hquiet hstep⟩
  · refine State.finalState_eq_none (fun hf => ?_) (step_ne_breakEncountered h)
    obtain ⟨-, -, -, hj, hm, -, -, hq⟩ := State.isFinal_iff.mp hf
    simp [hj, hm, hq] at h

end Sys2Proof.Machine
end
